-- ==== Sys2Proof/Word.lean ====
section
/-! DEFINITION. The word types of the block: limbs, the 256-bit bus, the command byte, and the structured
wide types U128 and U256 (spec/10_state.md R21, R22; spec/00_scope.md R4, R6). Every value is an unsigned
integer: `int(v)` of the spec is `BitVec.toNat`. -/

namespace Sys2Proof

/-- One limb, "a 64-bit unsigned integer" (R21). -/
abbrev Limb := BitVec 64

/-- A 128-bit value in its flat form: the half of a bus (R22). -/
abbrev Half := BitVec 128

/-- A bus or a 256-bit register (R6, `BUS_BITS = 256`); bit `i` has weight `2^i` (R31). -/
abbrev Bus := BitVec 256

/-- The internal double-width product bus of the 256-bit verifiers (R92): never a result. -/
abbrev WideBus := BitVec 512

/-- The command byte (R6, `CMD_BITS = 8`). -/
abbrev Byte := BitVec 8

/-- A two-limb value, `high * 2^64 + low` (R22). -/
structure U128 where
  low  : Limb
  high : Limb
  deriving DecidableEq, Repr

/-- A four-limb value, `high * 2^128 + low` (R22). -/
structure U256 where
  low  : U128
  high : U128
  deriving DecidableEq, Repr

end Sys2Proof
end

