-- ==== Sys2Proof/Config.lean ====
section
/-! DEFINITION. What an implementation fixes: the constants of R4 and R6, and the one open parameter
`EXPORT_BITS` of R5, which the model takes as an argument (it travels in the state and nothing writes it).
The other open parameter, the witness oracle (spec/92_eei_decisions.md D22), is no function here: every
answer is an arbitrary value that the environment presents (notes/assumptions/5.md). -/

namespace Sys2Proof

/-- `LIMB_BITS = 64` (R4). -/
def limbBits : Nat := 64

/-- `BUS_BITS = 256` (R6). -/
def busBits : Nat := 256

/-- `CMD_BITS = 8` (R6). -/
def cmdBits : Nat := 8

/-- `CODE_BITS = 4` (R6). -/
def codeBits : Nat := 4

/-- The parameters of one implementation of the block (R5). -/
structure Config where
  /-- `EXPORT_BITS`, `1 <= EXPORT_BITS <= 256`; only `EXPORT.256` reads it (R5, R63). -/
  exportBits : Nat
  deriving DecidableEq, Repr

/-- The default of R5: `EXPORT_BITS = 254`. -/
def defaultConfig : Config := { exportBits := 254 }

end Sys2Proof
end

