-- ==== Sys2Proof/Syntax.lean ====
section
/-! DEFINITION. The command set (R45 to R49): the three widths, the 21 operations, and the 56 commands, one
constructor per row of spec/opcode_table.json. A command has no field and no immediate (R51, R53): its operands
are whole buses that the call port carries. -/

namespace Sys2Proof

/-- The width of a command's operands, doc00's three modules (R4, R46). -/
inductive Width where
  /-- Uint64: one limb. -/
  | w64
  /-- Uint128: two limbs. -/
  | w128
  /-- Uint256: four limbs. -/
  | w256
  deriving DecidableEq, Repr

/-- The 21 operations, one row of R49 each, in the order of R49. -/
inductive Op where
  | exportTo
  | narrow
  | addw
  | addc
  | sub
  | mulw
  | mulc
  | div
  | rem
  | divrem
  | sqrt
  | eq
  | lt
  | lte
  | gt
  | gte
  | min
  | max
  | ismul
  | zero
  | modulus
  deriving DecidableEq, Repr

/-- The 56 commands, in the order of spec/opcode_table.json. -/
inductive Instr where
  /-- `ADDW.64`, byte `0x10` (R74). -/
  | addw64
  /-- `ADDC.64`, byte `0x11` (R76). -/
  | addc64
  /-- `SUB.64`, byte `0x12` (R79). -/
  | sub64
  /-- `MULW.64`, byte `0x18` (R93). -/
  | mulw64
  /-- `MULC.64`, byte `0x19` (R95). -/
  | mulc64
  /-- `DIV.64`, byte `0x20` (R110). -/
  | div64
  /-- `REM.64`, byte `0x21` (R113). -/
  | rem64
  /-- `DIVREM.64`, byte `0x22` (R116). -/
  | divrem64
  /-- `SQRT.64`, byte `0x28` (R130). -/
  | sqrt64
  /-- `EQ.64`, byte `0x30` (R141). -/
  | eq64
  /-- `LT.64`, byte `0x31` (R144). -/
  | lt64
  /-- `LTE.64`, byte `0x32` (R147). -/
  | lte64
  /-- `GT.64`, byte `0x33` (R150). -/
  | gt64
  /-- `GTE.64`, byte `0x34` (R153). -/
  | gte64
  /-- `MIN.64`, byte `0x35` (R156). -/
  | min64
  /-- `MAX.64`, byte `0x36` (R159). -/
  | max64
  /-- `ISMUL.64`, byte `0x37` (R162). -/
  | ismul64
  /-- `NARROW.128`, byte `0x49` (R64). -/
  | narrow128
  /-- `ADDW.128`, byte `0x50` (R75). -/
  | addw128
  /-- `ADDC.128`, byte `0x51` (R77). -/
  | addc128
  /-- `SUB.128`, byte `0x52` (R80). -/
  | sub128
  /-- `MULW.128`, byte `0x58` (R94). -/
  | mulw128
  /-- `MULC.128`, byte `0x59` (R96). -/
  | mulc128
  /-- `DIV.128`, byte `0x60` (R111). -/
  | div128
  /-- `REM.128`, byte `0x61` (R114). -/
  | rem128
  /-- `DIVREM.128`, byte `0x62` (R117). -/
  | divrem128
  /-- `SQRT.128`, byte `0x68` (R131). -/
  | sqrt128
  /-- `EQ.128`, byte `0x70` (R142). -/
  | eq128
  /-- `LT.128`, byte `0x71` (R145). -/
  | lt128
  /-- `LTE.128`, byte `0x72` (R148). -/
  | lte128
  /-- `GT.128`, byte `0x73` (R151). -/
  | gt128
  /-- `GTE.128`, byte `0x74` (R154). -/
  | gte128
  /-- `MIN.128`, byte `0x75` (R157). -/
  | min128
  /-- `MAX.128`, byte `0x76` (R160). -/
  | max128
  /-- `ISMUL.128`, byte `0x77` (R163). -/
  | ismul128
  /-- `ZERO.128`, byte `0x78` (R170). -/
  | zero128
  /-- `MODULUS.128`, byte `0x79` (R172). -/
  | modulus128
  /-- `EXPORT.256`, byte `0x88` (R63). -/
  | export256
  /-- `NARROW.256`, byte `0x89` (R65). -/
  | narrow256
  /-- `ADDC.256`, byte `0x91` (R78). -/
  | addc256
  /-- `SUB.256`, byte `0x92` (R81). -/
  | sub256
  /-- `MULC.256`, byte `0x99` (R97). -/
  | mulc256
  /-- `DIV.256`, byte `0xA0` (R112). -/
  | div256
  /-- `REM.256`, byte `0xA1` (R115). -/
  | rem256
  /-- `DIVREM.256`, byte `0xA2` (R118). -/
  | divrem256
  /-- `SQRT.256`, byte `0xA8` (R132). -/
  | sqrt256
  /-- `EQ.256`, byte `0xB0` (R143). -/
  | eq256
  /-- `LT.256`, byte `0xB1` (R146). -/
  | lt256
  /-- `LTE.256`, byte `0xB2` (R149). -/
  | lte256
  /-- `GT.256`, byte `0xB3` (R152). -/
  | gt256
  /-- `GTE.256`, byte `0xB4` (R155). -/
  | gte256
  /-- `MIN.256`, byte `0xB5` (R158). -/
  | min256
  /-- `MAX.256`, byte `0xB6` (R161). -/
  | max256
  /-- `ISMUL.256`, byte `0xB7` (R164). -/
  | ismul256
  /-- `ZERO.256`, byte `0xB8` (R171). -/
  | zero256
  /-- `MODULUS.256`, byte `0xB9` (R173). -/
  | modulus256
  deriving DecidableEq, Repr

/-- The operation a command performs: its mnemonic before the dot (R48). -/
def Instr.op : Instr → Op
  | .addw64 => .addw
  | .addc64 => .addc
  | .sub64 => .sub
  | .mulw64 => .mulw
  | .mulc64 => .mulc
  | .div64 => .div
  | .rem64 => .rem
  | .divrem64 => .divrem
  | .sqrt64 => .sqrt
  | .eq64 => .eq
  | .lt64 => .lt
  | .lte64 => .lte
  | .gt64 => .gt
  | .gte64 => .gte
  | .min64 => .min
  | .max64 => .max
  | .ismul64 => .ismul
  | .narrow128 => .narrow
  | .addw128 => .addw
  | .addc128 => .addc
  | .sub128 => .sub
  | .mulw128 => .mulw
  | .mulc128 => .mulc
  | .div128 => .div
  | .rem128 => .rem
  | .divrem128 => .divrem
  | .sqrt128 => .sqrt
  | .eq128 => .eq
  | .lt128 => .lt
  | .lte128 => .lte
  | .gt128 => .gt
  | .gte128 => .gte
  | .min128 => .min
  | .max128 => .max
  | .ismul128 => .ismul
  | .zero128 => .zero
  | .modulus128 => .modulus
  | .export256 => .exportTo
  | .narrow256 => .narrow
  | .addc256 => .addc
  | .sub256 => .sub
  | .mulc256 => .mulc
  | .div256 => .div
  | .rem256 => .rem
  | .divrem256 => .divrem
  | .sqrt256 => .sqrt
  | .eq256 => .eq
  | .lt256 => .lt
  | .lte256 => .lte
  | .gt256 => .gt
  | .gte256 => .gte
  | .min256 => .min
  | .max256 => .max
  | .ismul256 => .ismul
  | .zero256 => .zero
  | .modulus256 => .modulus

/-- The width a command works at: its mnemonic after the dot (R48). -/
def Instr.width : Instr → Width
  | .addw64 => .w64
  | .addc64 => .w64
  | .sub64 => .w64
  | .mulw64 => .w64
  | .mulc64 => .w64
  | .div64 => .w64
  | .rem64 => .w64
  | .divrem64 => .w64
  | .sqrt64 => .w64
  | .eq64 => .w64
  | .lt64 => .w64
  | .lte64 => .w64
  | .gt64 => .w64
  | .gte64 => .w64
  | .min64 => .w64
  | .max64 => .w64
  | .ismul64 => .w64
  | .narrow128 => .w128
  | .addw128 => .w128
  | .addc128 => .w128
  | .sub128 => .w128
  | .mulw128 => .w128
  | .mulc128 => .w128
  | .div128 => .w128
  | .rem128 => .w128
  | .divrem128 => .w128
  | .sqrt128 => .w128
  | .eq128 => .w128
  | .lt128 => .w128
  | .lte128 => .w128
  | .gt128 => .w128
  | .gte128 => .w128
  | .min128 => .w128
  | .max128 => .w128
  | .ismul128 => .w128
  | .zero128 => .w128
  | .modulus128 => .w128
  | .export256 => .w256
  | .narrow256 => .w256
  | .addc256 => .w256
  | .sub256 => .w256
  | .mulc256 => .w256
  | .div256 => .w256
  | .rem256 => .w256
  | .divrem256 => .w256
  | .sqrt256 => .w256
  | .eq256 => .w256
  | .lt256 => .w256
  | .lte256 => .w256
  | .gt256 => .w256
  | .gte256 => .w256
  | .min256 => .w256
  | .max256 => .w256
  | .ismul256 => .w256
  | .zero256 => .w256
  | .modulus256 => .w256

end Sys2Proof
end

