-- ==== Sys2Proof/WellFormed.lean ====
section
/-! DEFINITION. What a command and a configuration must satisfy. A command has no operand field, so its one
check is R49's column of legal widths; a configuration's one check is the range of `EXPORT_BITS` (R5). -/

namespace Sys2Proof

/-- R49's legal widths of each operation; a cell `-` of that table is `false` here (R83, R99, R174 give the
reasons for three of the rows). -/
def Op.legalAt : Op → Width → Bool
  | .exportTo, .w256 => true
  | .exportTo, _     => false
  | .narrow, .w64    => false
  | .narrow, _       => true
  | .addw, .w256     => false
  | .addw, _         => true
  | .mulw, .w256     => false
  | .mulw, _         => true
  | .zero, .w64      => false
  | .zero, _         => true
  | .modulus, .w64   => false
  | .modulus, _      => true
  | .addc, _         => true
  | .sub, _          => true
  | .mulc, _         => true
  | .div, _          => true
  | .rem, _          => true
  | .divrem, _       => true
  | .sqrt, _         => true
  | .eq, _           => true
  | .lt, _           => true
  | .lte, _          => true
  | .gt, _           => true
  | .gte, _          => true
  | .min, _          => true
  | .max, _          => true
  | .ismul, _        => true

/-- A command is well formed when R49 has a byte for its operation at its width. -/
def Instr.wellFormed (i : Instr) : Bool := i.op.legalAt i.width

/-- `1 <= EXPORT_BITS <= 256` (R5). -/
def Config.wellFormed (c : Config) : Bool := decide (1 ≤ c.exportBits) && decide (c.exportBits ≤ 256)

end Sys2Proof
end

