-- ==== Sys2Proof/Decode.lean ====
section
/-! DEFINITION. Decoding of the command byte (R45 to R50) and, after it, the encoder (R48). Decoding is total:
each of the 200 bytes that are no command is rejected under the name of the reason R50 gives. A rejected byte is
not an error of the model: the machine raises `IllegalCommand` for it (Machine/Ports.lean). -/

namespace Sys2Proof

/-- Why a byte is no command (R50), in the order the decoder looks; and the empty byte list. -/
inductive Reject where
  /-- `W = 3`: the bytes `0xC0` to `0xFF` (R46). -/
  | reservedWidth
  /-- `GRP = 0` (R47). -/
  | reservedGroup
  /-- A `(GRP, FN)` pair that is not in R49's map. -/
  | unassignedFunction
  /-- A reserved cell of R49: the operation has no command at this width. -/
  | noCommandAtWidth
  /-- No byte was given. -/
  | noByte
  deriving DecidableEq, Repr

/-- Field `W = cmd[7:6]` (R45). -/
def cmdWidthField (cmd : Byte) : Nat := (cmd.extractLsb' 6 2).toNat

/-- Field `GRP = cmd[5:3]` (R45). -/
def cmdGroupField (cmd : Byte) : Nat := (cmd.extractLsb' 3 3).toNat

/-- Field `FN = cmd[2:0]` (R45). -/
def cmdFunctionField (cmd : Byte) : Nat := (cmd.extractLsb' 0 3).toNat

/-- The width code (R46). -/
def decodeWidth : Nat → Except Reject Width
  | 0 => .ok .w64
  | 1 => .ok .w128
  | 2 => .ok .w256
  | _ => .error .reservedWidth

/-- The operation of a group and a function (R47, R49). -/
def decodeOp : Nat → Nat → Except Reject Op
  | 0, _ => .error .reservedGroup
  | 1, 0 => .ok .exportTo
  | 1, 1 => .ok .narrow
  | 2, 0 => .ok .addw
  | 2, 1 => .ok .addc
  | 2, 2 => .ok .sub
  | 3, 0 => .ok .mulw
  | 3, 1 => .ok .mulc
  | 4, 0 => .ok .div
  | 4, 1 => .ok .rem
  | 4, 2 => .ok .divrem
  | 5, 0 => .ok .sqrt
  | 6, 0 => .ok .eq
  | 6, 1 => .ok .lt
  | 6, 2 => .ok .lte
  | 6, 3 => .ok .gt
  | 6, 4 => .ok .gte
  | 6, 5 => .ok .min
  | 6, 6 => .ok .max
  | 6, 7 => .ok .ismul
  | 7, 0 => .ok .zero
  | 7, 1 => .ok .modulus
  | _, _ => .error .unassignedFunction

/-- The command of an operation at a width, where R49 has one. -/
def instrOf : Op → Width → Option Instr
  | .exportTo, .w256 => some .export256
  | .narrow, .w128 => some .narrow128
  | .narrow, .w256 => some .narrow256
  | .addw, .w64 => some .addw64
  | .addw, .w128 => some .addw128
  | .addc, .w64 => some .addc64
  | .addc, .w128 => some .addc128
  | .addc, .w256 => some .addc256
  | .sub, .w64 => some .sub64
  | .sub, .w128 => some .sub128
  | .sub, .w256 => some .sub256
  | .mulw, .w64 => some .mulw64
  | .mulw, .w128 => some .mulw128
  | .mulc, .w64 => some .mulc64
  | .mulc, .w128 => some .mulc128
  | .mulc, .w256 => some .mulc256
  | .div, .w64 => some .div64
  | .div, .w128 => some .div128
  | .div, .w256 => some .div256
  | .rem, .w64 => some .rem64
  | .rem, .w128 => some .rem128
  | .rem, .w256 => some .rem256
  | .divrem, .w64 => some .divrem64
  | .divrem, .w128 => some .divrem128
  | .divrem, .w256 => some .divrem256
  | .sqrt, .w64 => some .sqrt64
  | .sqrt, .w128 => some .sqrt128
  | .sqrt, .w256 => some .sqrt256
  | .eq, .w64 => some .eq64
  | .eq, .w128 => some .eq128
  | .eq, .w256 => some .eq256
  | .lt, .w64 => some .lt64
  | .lt, .w128 => some .lt128
  | .lt, .w256 => some .lt256
  | .lte, .w64 => some .lte64
  | .lte, .w128 => some .lte128
  | .lte, .w256 => some .lte256
  | .gt, .w64 => some .gt64
  | .gt, .w128 => some .gt128
  | .gt, .w256 => some .gt256
  | .gte, .w64 => some .gte64
  | .gte, .w128 => some .gte128
  | .gte, .w256 => some .gte256
  | .min, .w64 => some .min64
  | .min, .w128 => some .min128
  | .min, .w256 => some .min256
  | .max, .w64 => some .max64
  | .max, .w128 => some .max128
  | .max, .w256 => some .max256
  | .ismul, .w64 => some .ismul64
  | .ismul, .w128 => some .ismul128
  | .ismul, .w256 => some .ismul256
  | .zero, .w128 => some .zero128
  | .zero, .w256 => some .zero256
  | .modulus, .w128 => some .modulus128
  | .modulus, .w256 => some .modulus256
  | _, _ => none

/-- The command a byte stands for (R49), or the reason it stands for none (R50). -/
def decode (cmd : Byte) : Except Reject Instr :=
  match decodeWidth (cmdWidthField cmd) with
  | .error r => .error r
  | .ok w =>
    match decodeOp (cmdGroupField cmd) (cmdFunctionField cmd) with
    | .error r => .error r
    | .ok op =>
      match instrOf op w with
      | some i => .ok i
      | none => .error .noCommandAtWidth

/-- One command from a list of bytes, with the bytes after it: there is one command length, one byte (R45). -/
def decodeBytes : List Byte → Except Reject (Instr × List Byte)
  | [] => .error .noByte
  | cmd :: rest =>
    match decode cmd with
    | .ok i => .ok (i, rest)
    | .error r => .error r

/-- The value of field `W` for a width (R46). -/
def Width.code : Width → Nat
  | .w64  => 0
  | .w128 => 1
  | .w256 => 2

/-- The value of field `GRP` for an operation (R47, R49). -/
def Op.group : Op → Nat
  | .exportTo | .narrow => 1
  | .addw | .addc | .sub => 2
  | .mulw | .mulc => 3
  | .div | .rem | .divrem => 4
  | .sqrt => 5
  | .eq | .lt | .lte | .gt | .gte | .min | .max | .ismul => 6
  | .zero | .modulus => 7

/-- The value of field `FN` for an operation (R49). -/
def Op.function : Op → Nat
  | .exportTo => 0
  | .narrow => 1
  | .addw => 0
  | .addc => 1
  | .sub => 2
  | .mulw => 0
  | .mulc => 1
  | .div => 0
  | .rem => 1
  | .divrem => 2
  | .sqrt => 0
  | .eq => 0
  | .lt => 1
  | .lte => 2
  | .gt => 3
  | .gte => 4
  | .min => 5
  | .max => 6
  | .ismul => 7
  | .zero => 0
  | .modulus => 1

/-- The command byte, `(W << 6) | (GRP << 3) | FN` (R48). -/
def encode (i : Instr) : Byte :=
  BitVec.ofNat 2 i.width.code ++ BitVec.ofNat 3 i.op.group ++ BitVec.ofNat 3 i.op.function

/-- What this decoder reads from a row of the opcode table whose bits are `w`: every command is one byte, bit 0
the least significant (R31, R45), so a word of another length, or one that does not fit the byte, is no command. -/
def decodeTableWord (nbits w : Nat) : Option Instr :=
  if nbits = cmdBits ∧ w < 2 ^ cmdBits then
    match decode (BitVec.ofNat 8 w) with
    | .ok i => some i
    | .error _ => none
  else none

/-- The name of an operation, the mnemonic of R49's map. -/
def Op.name : Op → String
  | .exportTo => "EXPORT"
  | .narrow => "NARROW"
  | .addw => "ADDW"
  | .addc => "ADDC"
  | .sub => "SUB"
  | .mulw => "MULW"
  | .mulc => "MULC"
  | .div => "DIV"
  | .rem => "REM"
  | .divrem => "DIVREM"
  | .sqrt => "SQRT"
  | .eq => "EQ"
  | .lt => "LT"
  | .lte => "LTE"
  | .gt => "GT"
  | .gte => "GTE"
  | .min => "MIN"
  | .max => "MAX"
  | .ismul => "ISMUL"
  | .zero => "ZERO"
  | .modulus => "MODULUS"

/-- The width suffix of a mnemonic (R48). -/
def Width.name : Width → String
  | .w64  => "64"
  | .w128 => "128"
  | .w256 => "256"

/-- The mnemonic `NAME.w` of a command (R48, R54). -/
def Instr.mnemonic (i : Instr) : String := i.op.name ++ "." ++ i.width.name

end Sys2Proof
end

