-- ==== Sys2Proof/Machine/State.lean ====
section
/-! DEFINITION. The state: the seven registers of R11, and two fields of the model's own that are no
architectural state: the parameters of the implementation (R5) and the events that the environment presents at
the ports (R10, R24, R25, R210). Plain data throughout. -/

namespace Sys2Proof.Machine

/-- Where the block is in a call (R12). The code 3 never occurs (R11, R28) and has no constructor. -/
inductive Stage where
  /-- `IDLE`, code 0: no call has been made since reset. -/
  | idle
  /-- `QUERY`, code 1: a witness-verified call waits for the oracle's answer. -/
  | query
  /-- `DONE`, code 2: the last call has finished and `RES0`, `RES1`, `CODE` hold its outcome. -/
  | done
  deriving DecidableEq, Repr

/-- The ten fault kinds a call can end in (R181). They are outcomes of a call, delivered in `CODE`, and do not
stop the machine (R180): they are not constructors of `Fault`. -/
inductive FaultKind where
  | overflow
  | underflow
  | divisionByZero
  | remainderOutOfRange
  | divisionInvalid
  | sqrtOverestimate
  | sqrtUnderestimate
  | rangeExceeded
  | illegalCommand
  | operandRange
  deriving DecidableEq, Repr

/-- One event that an agent presents at the ports (R10). -/
inductive PortEvent where
  /-- The host presents a command byte and two operands on the call port (R24). -/
  | call (cmd : Byte) (a b : Bus)
  /-- The oracle presents a candidate on the witness port (R25); any two 256-bit values. -/
  | answer (wq wr : Bus)
  /-- The environment's reset (R210). -/
  | reset
  deriving DecidableEq, Repr

/-- The state of the machine. -/
structure State where
  /-- `stage` (R11, R12). -/
  stage  : Stage
  /-- `CMD`, 8 bits: the latched command byte (R13). -/
  CMD    : Byte
  /-- `A`, 256 bits: the latched first operand (R13). -/
  A      : Bus
  /-- `B`, 256 bits: the latched second operand (R13). -/
  B      : Bus
  /-- `RES0`, 256 bits: the result register (R14). -/
  RES0   : Bus
  /-- `RES1`, 256 bits: the second result register, used by `DIVREM` (R14). -/
  RES1   : Bus
  /-- `CODE`, 4 bits: the outcome code of the last completed call (R15). -/
  CODE   : BitVec 4
  /-- The MODEL's own: the parameters of the implementation (R5); nothing writes them. -/
  cfg    : Config
  /-- The MODEL's own: the events the environment presents from now on, the next one first. It is no queue of
  the block (R27: there is none) but the schedule of the three outside agents (notes/assumptions/1.md). -/
  inputs : List PortEvent
  deriving DecidableEq, Repr

/-- Why the machine stops. None of the spec's fault kinds stops it (R180). -/
inductive Fault where
  /-- Raised by the `answer` step alone, in a state with `stage = QUERY` whose `CMD` is none of the fifteen
  witness-verified commands. R28 says no reachable state is like that, and no rule says what an answer would do
  there. Safe: the model stops where the spec describes nothing. -/
  | noWitnessCommand
  deriving DecidableEq, Repr

/-- Why an instruction is refused. -/
inductive Refusal where
  /-- Raised by an arm of `exec` whose instruction has no meaning yet. No arm raises it now: all 56 commands
  have their meaning. Safe. -/
  | notModelled (mnemonic : String)
  deriving DecidableEq, Repr

/-- The outcome of one step. -/
abbrev Out := Host.Outcome State Fault Refusal

/-- The machine right after reset, every register at the value R210 states; `EXPORT_BITS` at its default (R5),
and nothing presented at the ports (R211: the block executes nothing until the host's first call). -/
def State.reset : State :=
  { stage := .idle, CMD := 0, A := 0, B := 0, RES0 := 0, RES1 := 0, CODE := 0,
    cfg := defaultConfig, inputs := [] }

end Sys2Proof.Machine
end

