-- ==== Sys2Proof/Machine/Ops.lean ====
section
/-! DEFINITION. The named operations on the registers: the three primitives that end a step of the block (R9),
among them `raise`, the taking of a fault (R180, R193), written once for all commands; the latching of a call
(R24); the reset event (R210); and the passing of a port event that has no effect (R213, R214).

There is no memory to read or write (R30) and no register that a command names (R17). Nothing returns from a
fault: there is no return command, and the next `call` is accepted as after a success (R194). -/

namespace Sys2Proof.Machine

/-- The two bits of `stage` (R11). -/
def Stage.bits : Stage → BitVec 2
  | .idle  => 0
  | .query => 1
  | .done  => 2

/-- The code of a fault kind (R181). -/
def FaultKind.code : FaultKind → BitVec 4
  | .overflow            => 1
  | .underflow           => 2
  | .divisionByZero      => 3
  | .remainderOutOfRange => 4
  | .divisionInvalid     => 5
  | .sqrtOverestimate    => 6
  | .sqrtUnderestimate   => 7
  | .rangeExceeded       => 8
  | .illegalCommand      => 9
  | .operandRange        => 10

/-- `done(r0, r1)` (R9): the call ends with a value. -/
def State.done (s : State) (r0 r1 : Bus) : State :=
  { s with RES0 := r0, RES1 := r1, CODE := 0, stage := .done }

/-- `raise <Fault>` (R9, R180, R193): the call ends in a fault. `CODE` takes the kind, the result registers are
zeroed, `CMD`, `A` and `B` are kept, and nothing else exists to save or to change. -/
def State.raise (s : State) (k : FaultKind) : State :=
  { s with RES0 := 0, RES1 := 0, CODE := k.code, stage := .done }

/-- `query(kind)` (R9): the call waits for the oracle; only `stage` is written. -/
def State.query (s : State) : State :=
  { s with stage := .query }

/-- The latching of an accepted call: `CMD <- cmd; A <- a; B <- b`, together (R13, R24, R34). -/
def State.latch (s : State) (cmd : Byte) (a b : Bus) : State :=
  { s with CMD := cmd, A := a, B := b }

/-- The event at the ports is over: the environment goes on to its next one. -/
def State.passEvent (s : State) : State :=
  { s with inputs := s.inputs.tail }

/-- The reset event (R210, R215): the seven registers take their reset values, whatever they held; the
implementation's parameters and the environment's further events are not the block's to reset. -/
def State.resetRegisters (s : State) : State :=
  { s with stage := .idle, CMD := 0, A := 0, B := 0, RES0 := 0, RES1 := 0, CODE := 0 }

end Sys2Proof.Machine
end

