-- ==== Sys2Proof/Machine/Operands.lean ====
section
/-! DEFINITION. Operands: the widths in bits and limbs (R4, R46), the limb layout of a bus (R22, R23, R31), the
conversions that are wiring (R60, R61), the operand range check every command makes first (R51), and which
operand each operation uses. There is no other operand form: no immediate, no addressing mode (R53). -/

namespace Sys2Proof

/-- The width in bits (R4). -/
def Width.bits : Width → Nat
  | .w64  => 64
  | .w128 => 128
  | .w256 => 256

/-- The limb count `n = W / 64` (R4). -/
def Width.limbs : Width → Nat
  | .w64  => 1
  | .w128 => 2
  | .w256 => 4

/-- Half the width, the width `NARROW` narrows to and whose modulus `MODULUS` gives (R64, R65, R172, R173). -/
def Width.halfBits : Width → Nat
  | .w64  => 32
  | .w128 => 64
  | .w256 => 128

/-- Twice the width: the width of an exact product (R92). -/
def Width.wideBits : Width → Nat
  | .w64  => 128
  | .w128 => 256
  | .w256 => 512

/-- Does the operation use operand `a` (R51)? -/
def Op.usesA : Op → Bool
  | .zero | .modulus => false
  | .exportTo | .narrow | .addw | .addc | .sub | .mulw | .mulc | .div | .rem | .divrem | .sqrt
  | .eq | .lt | .lte | .gt | .gte | .min | .max | .ismul => true

/-- Does the operation use operand `b` (R51)? -/
def Op.usesB : Op → Bool
  | .exportTo | .narrow | .sqrt | .zero | .modulus => false
  | .addw | .addc | .sub | .mulw | .mulc | .div | .rem | .divrem
  | .eq | .lt | .lte | .gt | .gte | .min | .max | .ismul => true

/-- Is the operation witness-verified by a division query: `DIV`, `REM`, `DIVREM`, `ISMUL` (R25)? -/
def Op.dividesByWitness : Op → Bool
  | .div | .rem | .divrem | .ismul => true
  | .exportTo | .narrow | .addw | .addc | .sub | .mulw | .mulc | .sqrt
  | .eq | .lt | .lte | .gt | .gte | .min | .max | .zero | .modulus => false

/-- Is the operation witness-verified at all: the four of the division family, and `SQRT` (R25, R28)? -/
def Op.queriesWitness (op : Op) : Bool := op.dividesByWitness || decide (op = .sqrt)

end Sys2Proof

namespace Sys2Proof.Machine

/-- `limb(v, i) = v[64*i+63 : 64*i]`; limb 0 is the least significant (R23, R31). -/
def limb {w : Nat} (v : BitVec w) (i : Nat) : Limb := v.extractLsb' (64 * i) 64

/-- `toWide`: the `n` lowest limbs of a value, "most-significant limb last" (R60). -/
def toWide {w : Nat} (n : Nat) (v : BitVec w) : List Limb := (List.range n).map (limb v)

/-- The integer a list of limbs denotes, least significant limb first (R61). -/
def limbsValue : List Limb → Nat
  | [] => 0
  | l :: ls => l.toNat + 2 ^ 64 * limbsValue ls

/-- `fromWide`: the value whose limbs these are (R61). -/
def fromWide (w : Nat) (ls : List Limb) : BitVec w := BitVec.ofNat w (limbsValue ls)

/-- `fits(v, k)`: `int(v) < 2^k` (R51). -/
def fits (v : Bus) (k : Nat) : Bool := decide (v.toNat < 2 ^ k)

/-- The range check of a command that uses `a` alone (R51, R57): its value at the command's width, or
`OperandRange`. -/
def withOperandA (w : Width) (s : State) (k : BitVec w.bits → Out) : Out :=
  if fits s.A w.bits then k (s.A.setWidth w.bits) else .next (s.raise .operandRange)

/-- The range check of a command that uses both operands, `a` before `b` (R51, R57, R190). -/
def withOperands (w : Width) (s : State) (k : BitVec w.bits → BitVec w.bits → Out) : Out :=
  if fits s.A w.bits then
    if fits s.B w.bits then k (s.A.setWidth w.bits) (s.B.setWidth w.bits)
    else .next (s.raise .operandRange)
  else .next (s.raise .operandRange)

end Sys2Proof.Machine

namespace Sys2Proof

/-- The flat 128-bit form of a U128: `low` at bits `[63:0]`, `high` at `[127:64]` (R22, R23). -/
def U128.flat (x : U128) : Half := x.high ++ x.low

/-- The flat 256-bit form of a U256: `low` at bits `[127:0]`, `high` at `[255:128]` (R22, R23). -/
def U256.flat (x : U256) : Bus := x.high.flat ++ x.low.flat

/-- The structured form of a 128-bit value (R22, R23). -/
def U128.ofFlat (v : Half) : U128 := { low := Machine.limb v 0, high := Machine.limb v 1 }

/-- The structured form of a bus (R22, R23). -/
def U256.ofFlat (v : Bus) : U256 :=
  { low := { low := Machine.limb v 0, high := Machine.limb v 1 },
    high := { low := Machine.limb v 2, high := Machine.limb v 3 } }

/-- The value of a U128, `high * 2^64 + low` (R22). -/
def U128.value (x : U128) : Nat := x.high.toNat * 2 ^ 64 + x.low.toNat

/-- The value of a U256, `high * 2^128 + low` (R22). -/
def U256.value (x : U256) : Nat := x.high.value * 2 ^ 128 + x.low.value

end Sys2Proof
end

