-- ==== Sys2Proof/Machine/Datapath.lean ====
section
/-! DEFINITION. The datapath units (R1): the 64-bit limb adder and subtractor with their chains (R70 to R73), the
limb multiplier and the cascaded multipliers (R90 to R92), the limb comparator (R140), and the two verifiers'
datapaths (R109, R129). Each is written as the rule's own algorithm; that it computes the exact integer result
(R7) is stated of it, not built into it. -/

namespace Sys2Proof.Machine

/-! ### Adder and subtractor -/

/-- `adc64(x, y, cin) -> (sum, cout)` (R70). -/
def adc64 (x y : Limb) (cin : BitVec 1) : Limb × BitVec 1 :=
  let t := x.toNat + y.toNat + cin.toNat
  (BitVec.ofNat 64 t, BitVec.ofNat 1 (t / 2 ^ 64))

/-- `sbb64(x, y, bin) -> (diff, bout)` (R71). -/
def sbb64 (x y : Limb) (bin : BitVec 1) : Limb × BitVec 1 :=
  let t : Int := (x.toNat : Int) - (y.toNat : Int) - (bin.toNat : Int)
  (BitVec.ofInt 64 t, if t < 0 then 1 else 0)

/-- The loop of R72: the carry threaded from the least significant limb upwards. Gives the sum limbs and the
carry out of the last one. -/
def carryChain : List Limb → List Limb → BitVec 1 → List Limb × BitVec 1
  | x :: xs, y :: ys, c =>
    let r := adc64 x y c
    let t := carryChain xs ys r.2
    (r.1 :: t.1, t.2)
  | _, _, c => ([], c)

/-- The loop of R73: the borrow threaded from the least significant limb upwards. -/
def borrowChain : List Limb → List Limb → BitVec 1 → List Limb × BitVec 1
  | x :: xs, y :: ys, b =>
    let r := sbb64 x y b
    let t := borrowChain xs ys r.2
    (r.1 :: t.1, t.2)
  | _, _, b => ([], b)

/-- `add_n(a, b) -> (s, cout)` (R72). -/
def addN {w : Nat} (n : Nat) (a b : BitVec w) : BitVec w × BitVec 1 :=
  let r := carryChain (toWide n a) (toWide n b) 0
  (fromWide w r.1, r.2)

/-- `sub_n(a, b) -> (d, bout)` (R73). -/
def subN {w : Nat} (n : Nat) (a b : BitVec w) : BitVec w × BitVec 1 :=
  let r := borrowChain (toWide n a) (toWide n b) 0
  (fromWide w r.1, r.2)

/-! ### Multiplier -/

/-- `mul64(x, y) -> (lo, hi)` (R90); how the product is formed inside is not specified. -/
def mul64 (x y : Limb) : Limb × Limb :=
  let p := x.toNat * y.toNat
  (BitVec.ofNat 64 p, BitVec.ofNat 64 (p / 2 ^ 64))

/-- The column sums of R91 (and of R92, one level up), from four cross-products of `h`-bit digits whose low and
high halves `m` gives: the digits `(r3, r2, r1, r0)` of the product. Each column sum is kept whole, as an integer,
and only its excess over `h` bits is carried to the next column (spec/90_conflicts.md C7). -/
def schoolbook {h : Nat} (m : BitVec h → BitVec h → BitVec h × BitVec h) (a1 a0 b1 b0 : BitVec h) :
    BitVec h × BitVec h × BitVec h × BitVec h :=
  let p00 := m a0 b0
  let p01 := m a0 b1
  let p10 := m a1 b0
  let p11 := m a1 b1
  let col1 := p00.2.toNat + p01.1.toNat + p10.1.toNat
  let k1 := col1 / 2 ^ h
  let col2 := p01.2.toNat + p10.2.toNat + p11.1.toNat + k1
  let k2 := col2 / 2 ^ h
  let col3 := p11.2.toNat + k2
  (BitVec.ofNat h col3, BitVec.ofNat h col2, BitVec.ofNat h col1, p00.1)

/-- `mulwide_64(a, b) = {hi, lo}` (R92). -/
def mulwide64 (a b : BitVec 64) : BitVec 128 :=
  let p := mul64 a b
  p.2 ++ p.1

/-- `mulwide_128(a, b)`, 128x128 to 256 bits, from four uses of `mul64` (R91). -/
def mulwide128 (a b : BitVec 128) : BitVec 256 :=
  match schoolbook mul64 (limb a 1) (limb a 0) (limb b 1) (limb b 0) with
  | (r3, r2, r1, r0) => r3 ++ r2 ++ r1 ++ r0

/-- `mulwide_128` split into its low and high 128 bits (R92). -/
def mulHalf (a b : Half) : Half × Half :=
  let p := mulwide128 a b
  (p.extractLsb' 0 128, p.extractLsb' 128 128)

/-- `mulwide_256(a, b)`, 256x256 to 512 bits, inside the block only (R92): R91 with U128 halves for limbs. -/
def mulwide256 (a b : BitVec 256) : BitVec 512 :=
  match schoolbook mulHalf (a.extractLsb' 128 128) (a.extractLsb' 0 128)
      (b.extractLsb' 128 128) (b.extractLsb' 0 128) with
  | (r3, r2, r1, r0) => r3 ++ r2 ++ r1 ++ r0

/-- `mulwide_W` (R92): the exact `2W`-bit product of two `W`-bit values. -/
def mulwide : (w : Width) → BitVec w.bits → BitVec w.bits → BitVec w.wideBits
  | .w64, a, b  => mulwide64 a b
  | .w128, a, b => mulwide128 a b
  | .w256, a, b => mulwide256 a b

/-! ### Comparator -/

/-- `lt_n(a, b)` (R140): from the most significant limb down, the first difference decides. -/
def ltN {w : Nat} : Nat → BitVec w → BitVec w → Bool
  | 0, _, _ => false
  | i + 1, a, b =>
    if (limb a i).toNat < (limb b i).toNat then true
    else if (limb a i).toNat > (limb b i).toNat then false
    else ltN i a b

/-- `eq_n(a, b)` (R140): every limb agrees. -/
def eqN {w : Nat} : Nat → BitVec w → BitVec w → Bool
  | 0, _, _ => true
  | i + 1, a, b => decide (limb a i = limb b i) && eqN i a b

/-! ### Verifier datapaths -/

/-- `recon_ok(wq, wr)` (R109), for a dividend `a` and a divisor `b` of width `w`: the exact product in `2W` bits,
the remainder added over `2n` limbs, no carry out, an upper half of zeros, and a lower half equal to the dividend.
Its precondition is that stage 3 passed. -/
def reconOk (w : Width) (a b wq wr : Bus) : Bool :=
  if fits wq w.bits then
    let p := mulwide w (wq.setWidth w.bits) (b.setWidth w.bits)
    let r := addN (2 * w.limbs) p ((wr.setWidth w.bits).setWidth w.wideBits)
    decide (r.2 = 0) && decide (r.1 >>> w.bits = 0) &&
      eqN w.limbs (r.1.setWidth w.bits) (a.setWidth w.bits)
  else false

/-- The three answers of `sqrt_check` (R129). -/
inductive RootCheck where
  | overestimate
  | underestimate
  | accept
  deriving DecidableEq, Repr

/-- `sqrt_check(wq)` (R129), for a radicand `a` of width `w`. -/
def sqrtCheck (w : Width) (a wq : Bus) : RootCheck :=
  if fits wq w.halfBits then
    let n := a.setWidth w.bits
    let r := wq.setWidth w.bits
    let p := mulwide w r r
    if ltN w.limbs n (p.setWidth w.bits) then .overestimate
    else
      let r1 := (addN w.limbs r 1).1
      let q := mulwide w r1 r1
      if q >>> w.bits = 0 ∧ ¬ (ltN w.limbs n (q.setWidth w.bits) = true) then .underestimate
      else .accept
  else .overestimate

end Sys2Proof.Machine
end

