-- ==== Sys2Proof/Machine/AddSub.lean ====
section
/-! DEFINITION. Addition and subtraction (spec/41_addsub.md): the widening `ADDW`, the checked `ADDC` and `SUB`. -/

namespace Sys2Proof.Machine

/-- `ADDW.w` (R74, R75): the sum with its carry as the bit above it; no fault but `OperandRange`. -/
def addWidening (w : Width) (s : State) : Out :=
  withOperands w s fun a b =>
    let r := addN w.limbs a b
    .next (s.done ((r.2 ++ r.1).setWidth 256) 0)

/-- `ADDC.w` (R76 to R78): the sum, or `Overflow` on a carry out of the top limb. -/
def addChecked (w : Width) (s : State) : Out :=
  withOperands w s fun a b =>
    let r := addN w.limbs a b
    if r.2 = 1 then .next (s.raise .overflow) else .next (s.done (r.1.setWidth 256) 0)

/-- `SUB.w` (R79 to R81): the difference, or `Underflow` on a borrow out of the top limb. -/
def subChecked (w : Width) (s : State) : Out :=
  withOperands w s fun a b =>
    let r := subN w.limbs a b
    if r.2 = 1 then .next (s.raise .underflow) else .next (s.done (r.1.setWidth 256) 0)

/-- `ADDW.64` (R74). -/
def execAddw64 (s : State) : Out := addWidening .w64 s

/-- `ADDW.128` (R75). -/
def execAddw128 (s : State) : Out := addWidening .w128 s

/-- `ADDC.64` (R76). -/
def execAddc64 (s : State) : Out := addChecked .w64 s

/-- `ADDC.128` (R77). -/
def execAddc128 (s : State) : Out := addChecked .w128 s

/-- `ADDC.256` (R78). -/
def execAddc256 (s : State) : Out := addChecked .w256 s

/-- `SUB.64` (R79). -/
def execSub64 (s : State) : Out := subChecked .w64 s

/-- `SUB.128` (R80). -/
def execSub128 (s : State) : Out := subChecked .w128 s

/-- `SUB.256` (R81). -/
def execSub256 (s : State) : Out := subChecked .w256 s

end Sys2Proof.Machine
end

