-- ==== Sys2Proof/Machine/Flags.lean ====
section
/-! DEFINITION. There is no flag register, and no command has a flag side effect (R19): a carry or a borrow lives
inside one call. What the outside sees instead is decoded here from the state: the truth value a comparison
writes (R52), the response port's status byte and level outputs (R16, R26), and the witness port's request
signals (R25). All of them are views; reading one changes nothing (R34). -/

namespace Sys2Proof.Machine

/-- A truth value on the result bus: 1 for true, 0 for false (R52). -/
def truth (b : Bool) : Bus := if b then 1 else 0

/-- `STATUS[3:0] = CODE`, `STATUS[5:4] = stage`, `STATUS[7:6] = 0` (R16). -/
def State.STATUS (s : State) : Byte := (0 : BitVec 2) ++ s.stage.bits ++ s.CODE

/-- `READY = (stage != QUERY)`: a call will be accepted (R16). -/
def State.READY (s : State) : Bool := decide (s.stage ≠ .query)

/-- `DONE_O = (stage == DONE)`: `CODE`, `RES0`, `RES1` hold an outcome (R16). -/
def State.DONE_O (s : State) : Bool := decide (s.stage = .done)

/-- `WREQ = (stage == QUERY)` (R25). -/
def State.WREQ (s : State) : Bool := decide (s.stage = .query)

/-- The request signals the witness port drives beside `WREQ` (R25). -/
structure WitnessRequest where
  /-- `WKIND`: 0 for a division query, 1 for a square-root query. -/
  WKIND : BitVec 1
  /-- `WW = CMD[7:6]`, the width code. -/
  WW    : BitVec 2
  /-- `WA = A`: the dividend, or the radicand. -/
  WA    : Bus
  /-- `WB = B` for a division query (the divisor), 0 for a square-root query. -/
  WB    : Bus
  deriving DecidableEq, Repr

/-- The witness request (R25). The signals are "valid while `stage = QUERY`" and only then: outside it, and for a
latched byte that is no witness-verified command, there is none (notes/assumptions/8.md). -/
def State.witnessRequest (s : State) : Option WitnessRequest :=
  if s.WREQ then
    match decode s.CMD with
    | .ok i =>
      if i.op.dividesByWitness then
        some { WKIND := 0, WW := s.CMD.extractLsb' 6 2, WA := s.A, WB := s.B }
      else if i.op = .sqrt then
        some { WKIND := 1, WW := s.CMD.extractLsb' 6 2, WA := s.A, WB := 0 }
      else none
    | .error _ => none
  else none

end Sys2Proof.Machine
end

