-- ==== Sys2Proof/Machine/Compare.lean ====
section
/-! DEFINITION. Comparisons, minimum and maximum (spec/45_compare.md). `ISMUL`, of the same group, runs the
division verifier and stands in Machine/Div.lean. -/

namespace Sys2Proof.Machine

/-- A comparison (R141 to R155): a truth value; no fault but `OperandRange`. -/
def compareBy (w : Width) (f : BitVec w.bits → BitVec w.bits → Bool) (s : State) : Out :=
  withOperands w s fun a b => .next (s.done (truth (f a b)) 0)

/-- A choice between the operands (R156 to R161): `B` where the test holds, else `A`; on a tie `A`, which cannot
be observed. -/
def chooseBy (w : Width) (takeB : BitVec w.bits → BitVec w.bits → Bool) (s : State) : Out :=
  withOperands w s fun a b => .next (s.done ((if takeB a b then b else a).setWidth 256) 0)

/-- `EQ.64` (R141). -/
def execEq64 (s : State) : Out := compareBy .w64 (eqN 1) s

/-- `EQ.128` (R142). -/
def execEq128 (s : State) : Out := compareBy .w128 (eqN 2) s

/-- `EQ.256` (R143). -/
def execEq256 (s : State) : Out := compareBy .w256 (eqN 4) s

/-- `LT.64` (R144). -/
def execLt64 (s : State) : Out := compareBy .w64 (ltN 1) s

/-- `LT.128` (R145). -/
def execLt128 (s : State) : Out := compareBy .w128 (ltN 2) s

/-- `LT.256` (R146). -/
def execLt256 (s : State) : Out := compareBy .w256 (ltN 4) s

/-- `LTE.64` (R147). -/
def execLte64 (s : State) : Out := compareBy .w64 (fun a b => !ltN 1 b a) s

/-- `LTE.128` (R148). -/
def execLte128 (s : State) : Out := compareBy .w128 (fun a b => !ltN 2 b a) s

/-- `LTE.256` (R149). -/
def execLte256 (s : State) : Out := compareBy .w256 (fun a b => !ltN 4 b a) s

/-- `GT.64` (R150). -/
def execGt64 (s : State) : Out := compareBy .w64 (fun a b => ltN 1 b a) s

/-- `GT.128` (R151). -/
def execGt128 (s : State) : Out := compareBy .w128 (fun a b => ltN 2 b a) s

/-- `GT.256` (R152). -/
def execGt256 (s : State) : Out := compareBy .w256 (fun a b => ltN 4 b a) s

/-- `GTE.64` (R153). -/
def execGte64 (s : State) : Out := compareBy .w64 (fun a b => !ltN 1 a b) s

/-- `GTE.128` (R154). -/
def execGte128 (s : State) : Out := compareBy .w128 (fun a b => !ltN 2 a b) s

/-- `GTE.256` (R155). -/
def execGte256 (s : State) : Out := compareBy .w256 (fun a b => !ltN 4 a b) s

/-- `MIN.64` (R156). -/
def execMin64 (s : State) : Out := chooseBy .w64 (fun a b => ltN 1 b a) s

/-- `MIN.128` (R157). -/
def execMin128 (s : State) : Out := chooseBy .w128 (fun a b => ltN 2 b a) s

/-- `MIN.256` (R158). -/
def execMin256 (s : State) : Out := chooseBy .w256 (fun a b => ltN 4 b a) s

/-- `MAX.64` (R159). -/
def execMax64 (s : State) : Out := chooseBy .w64 (ltN 1) s

/-- `MAX.128` (R160). -/
def execMax128 (s : State) : Out := chooseBy .w128 (ltN 2) s

/-- `MAX.256` (R161). -/
def execMax256 (s : State) : Out := chooseBy .w256 (ltN 4) s

end Sys2Proof.Machine
end

