-- ==== Sys2Proof/Machine/Const.lean ====
section
/-! DEFINITION. The constant accessors (spec/46_const.md). Their operands are not examined (R51, R170), so they
cannot fault. -/

namespace Sys2Proof.Machine

/-- The wraparound modulus of the next-narrower width, `2^(W/2)`, as a value of width `w` (R172, R173). -/
def modulus (w : Width) : Bus := BitVec.ofNat 256 (2 ^ w.halfBits)

/-- `ZERO.128` (R170). -/
def execZero128 (s : State) : Out := .next (s.done 0 0)

/-- `ZERO.256` (R171). -/
def execZero256 (s : State) : Out := .next (s.done 0 0)

/-- `MODULUS.128` (R172). -/
def execModulus128 (s : State) : Out := .next (s.done (modulus .w128) 0)

/-- `MODULUS.256` (R173). -/
def execModulus256 (s : State) : Out := .next (s.done (modulus .w256) 0)

end Sys2Proof.Machine
end

