-- ==== Sys2Proof/Machine/Convert.lean ====
section
/-! DEFINITION. The conversions that can fail (spec/40_convert.md): `EXPORT.256`, `NARROW.128`, `NARROW.256`. -/

namespace Sys2Proof.Machine

/-- A conversion to `k` bits (R63, R64, R65): the value as it is, or `RangeExceeded`. -/
def convertTo (w : Width) (k : Nat) (s : State) : Out :=
  withOperandA w s fun a =>
    if fits (a.setWidth 256) k then .next (s.done (a.setWidth 256) 0)
    else .next (s.raise .rangeExceeded)

/-- `EXPORT.256`: the external range limit `EXPORT_BITS` (R63). -/
def execExport256 (s : State) : Out := convertTo .w256 s.cfg.exportBits s

/-- `NARROW.128`: to 64 bits (R64). -/
def execNarrow128 (s : State) : Out := convertTo .w128 Width.w128.halfBits s

/-- `NARROW.256`: to 128 bits (R65). -/
def execNarrow256 (s : State) : Out := convertTo .w256 Width.w256.halfBits s

end Sys2Proof.Machine
end

