-- ==== Sys2Proof/Machine/Witness.lean ====
section
/-! DEFINITION. The two halves of a witness-verified command (R12, R25): its `call` half, run while `stage` is
`IDLE` or `DONE`, and its `answer` half, run while `stage` is `QUERY` on the pair the oracle presents. -/

namespace Sys2Proof.Machine

/-- A witness-verified command. In `QUERY` it takes the answer presented at the ports, any two 256-bit values
(R25); with no answer presented it waits, unchanged (R216). Otherwise it starts. -/
def witnessed (s : State) (start : State → Out) (answer : Bus → Bus → State → Out) : Out :=
  match s.stage with
  | .query =>
    match s.inputs with
    | .answer wq wr :: _ => answer wq wr s.passEvent
    | _ => .next s
  | .idle => start s
  | .done => start s

end Sys2Proof.Machine
end

