-- ==== Sys2Proof/Machine/Div.lean ====
section
/-! DEFINITION. The division verifier (spec/43_div.md) and its commands `DIV`, `REM`, `DIVREM`, and `ISMUL` of
spec/45_compare.md, which runs the same procedure (R162 to R164). The block never divides. The verification is
R106's, over unbounded integers; that the limb datapath of R109 (`reconOk`) decides the same is stated of it. -/

namespace Sys2Proof.Machine

/-- `div_start` (R105), after the range check of both operands (R57): Reject on a zero divisor, whatever the
dividend and with no query; otherwise query. -/
def divStart (w : Width) (s : State) : Out :=
  withOperands w s fun _ b =>
    if b.toNat = 0 then .next (s.raise .divisionByZero) else .next s.query

/-- `div_answer(wq, wr)` (R106 to R108): verify the remainder's bound, then the reconstruction, both over
unbounded integers and in this order; then accept, with the result `accept wq wr` for `RES0` and `RES1`. -/
def divAnswer (accept : Bus → Bus → Bus × Bus) (wq wr : Bus) (s : State) : Out :=
  if wr.toNat < s.B.toNat then
    if wq.toNat * s.B.toNat + wr.toNat = s.A.toNat then
      .next (s.done (accept wq wr).1 (accept wq wr).2)
    else .next (s.raise .divisionInvalid)
  else .next (s.raise .remainderOutOfRange)

/-- The `DIV` arm of R106: `done(wq, 0)`. -/
def acceptQuotient (wq _wr : Bus) : Bus × Bus := (wq, 0)

/-- The `REM` arm of R106: `done(wr, 0)`. -/
def acceptRemainder (_wq wr : Bus) : Bus × Bus := (wr, 0)

/-- The `DIVREM` arm of R106: `done(wq, wr)`. -/
def acceptBoth (wq wr : Bus) : Bus × Bus := (wq, wr)

/-- The `ISMUL` arm of R106: 1 if the remainder is zero, else 0. -/
def acceptDivides (_wq wr : Bus) : Bus × Bus := (if wr.toNat = 0 then 1 else 0, 0)

/-- `DIV.64` (R110). -/
def execDiv64 (s : State) : Out := witnessed s (divStart .w64) (divAnswer acceptQuotient)

/-- `DIV.128` (R111). -/
def execDiv128 (s : State) : Out := witnessed s (divStart .w128) (divAnswer acceptQuotient)

/-- `DIV.256` (R112). -/
def execDiv256 (s : State) : Out := witnessed s (divStart .w256) (divAnswer acceptQuotient)

/-- `REM.64` (R113). -/
def execRem64 (s : State) : Out := witnessed s (divStart .w64) (divAnswer acceptRemainder)

/-- `REM.128` (R114). -/
def execRem128 (s : State) : Out := witnessed s (divStart .w128) (divAnswer acceptRemainder)

/-- `REM.256` (R115). -/
def execRem256 (s : State) : Out := witnessed s (divStart .w256) (divAnswer acceptRemainder)

/-- `DIVREM.64` (R116). -/
def execDivrem64 (s : State) : Out := witnessed s (divStart .w64) (divAnswer acceptBoth)

/-- `DIVREM.128` (R117). -/
def execDivrem128 (s : State) : Out := witnessed s (divStart .w128) (divAnswer acceptBoth)

/-- `DIVREM.256` (R118). -/
def execDivrem256 (s : State) : Out := witnessed s (divStart .w256) (divAnswer acceptBoth)

/-- `ISMUL.64` (R162). -/
def execIsmul64 (s : State) : Out := witnessed s (divStart .w64) (divAnswer acceptDivides)

/-- `ISMUL.128` (R163). -/
def execIsmul128 (s : State) : Out := witnessed s (divStart .w128) (divAnswer acceptDivides)

/-- `ISMUL.256` (R164). -/
def execIsmul256 (s : State) : Out := witnessed s (divStart .w256) (divAnswer acceptDivides)

end Sys2Proof.Machine
end

