-- ==== Sys2Proof/Machine/Mul.lean ====
section
/-! DEFINITION. Multiplication (spec/42_mul.md): the widening `MULW` and the checked `MULC`. -/

namespace Sys2Proof.Machine

/-- `MULW.w` (R93, R94): the exact product; no fault but `OperandRange`. -/
def mulWidening (w : Width) (s : State) : Out :=
  withOperands w s fun a b => .next (s.done ((mulwide w a b).setWidth 256) 0)

/-- `MULC.w` (R95 to R97): the lower half of the exact product, or `Overflow` when the upper half is not zero. -/
def mulChecked (w : Width) (s : State) : Out :=
  withOperands w s fun a b =>
    let p := mulwide w a b
    if p >>> w.bits = 0 then .next (s.done ((p.setWidth w.bits).setWidth 256) 0)
    else .next (s.raise .overflow)

/-- `MULW.64` (R93). -/
def execMulw64 (s : State) : Out := mulWidening .w64 s

/-- `MULW.128` (R94). -/
def execMulw128 (s : State) : Out := mulWidening .w128 s

/-- `MULC.64` (R95). -/
def execMulc64 (s : State) : Out := mulChecked .w64 s

/-- `MULC.128` (R96). -/
def execMulc128 (s : State) : Out := mulChecked .w128 s

/-- `MULC.256` (R97). -/
def execMulc256 (s : State) : Out := mulChecked .w256 s

end Sys2Proof.Machine
end

