-- ==== Sys2Proof/Machine/Sqrt.lean ====
section
/-! DEFINITION. The square-root verifier (spec/44_sqrt.md) and `SQRT`. The block never extracts a root. The
verification is R126's, over unbounded integers; that the limb datapath of R129 (`sqrtCheck`) decides the same is
stated of it. -/

namespace Sys2Proof.Machine

/-- `sqrt_start` (R125), after the range check of the radicand (R57): always a query; `b` is not examined. -/
def sqrtStart (w : Width) (s : State) : Out :=
  withOperandA w s fun _ => .next s.query

/-- `sqrt_answer(wq, wr)` (R126 to R128): not too high, then not too low, over unbounded integers; equality
`(r + 1)^2 = n` is an underestimate (spec/90_conflicts.md C1); `wr` is ignored. -/
def sqrtAnswer (wq _wr : Bus) (s : State) : Out :=
  if wq.toNat * wq.toNat ≤ s.A.toNat then
    if s.A.toNat < (wq.toNat + 1) * (wq.toNat + 1) then .next (s.done wq 0)
    else .next (s.raise .sqrtUnderestimate)
  else .next (s.raise .sqrtOverestimate)

/-- `SQRT.64` (R130). -/
def execSqrt64 (s : State) : Out := witnessed s (sqrtStart .w64) sqrtAnswer

/-- `SQRT.128` (R131). -/
def execSqrt128 (s : State) : Out := witnessed s (sqrtStart .w128) sqrtAnswer

/-- `SQRT.256` (R132). -/
def execSqrt256 (s : State) : Out := witnessed s (sqrtStart .w256) sqrtAnswer

end Sys2Proof.Machine
end

