-- ==== Sys2Proof/Machine/Dispatch.lean ====
section
/-! DEFINITION. The meaning of each command in the call that `CMD`, `A` and `B` hold: the `case name of` of R57,
one arm per row of spec/opcode_table.json. -/

namespace Sys2Proof.Machine

def exec (i : Instr) (s : State) : Host.Outcome State Fault Refusal :=
  match i with
  | .addw64 => Sys2Proof.Machine.execAddw64 s
  | .addc64 => Sys2Proof.Machine.execAddc64 s
  | .sub64 => Sys2Proof.Machine.execSub64 s
  | .mulw64 => Sys2Proof.Machine.execMulw64 s
  | .mulc64 => Sys2Proof.Machine.execMulc64 s
  | .div64 => Sys2Proof.Machine.execDiv64 s
  | .rem64 => Sys2Proof.Machine.execRem64 s
  | .divrem64 => Sys2Proof.Machine.execDivrem64 s
  | .sqrt64 => Sys2Proof.Machine.execSqrt64 s
  | .eq64 => Sys2Proof.Machine.execEq64 s
  | .lt64 => Sys2Proof.Machine.execLt64 s
  | .lte64 => Sys2Proof.Machine.execLte64 s
  | .gt64 => Sys2Proof.Machine.execGt64 s
  | .gte64 => Sys2Proof.Machine.execGte64 s
  | .min64 => Sys2Proof.Machine.execMin64 s
  | .max64 => Sys2Proof.Machine.execMax64 s
  | .ismul64 => Sys2Proof.Machine.execIsmul64 s
  | .narrow128 => Sys2Proof.Machine.execNarrow128 s
  | .addw128 => Sys2Proof.Machine.execAddw128 s
  | .addc128 => Sys2Proof.Machine.execAddc128 s
  | .sub128 => Sys2Proof.Machine.execSub128 s
  | .mulw128 => Sys2Proof.Machine.execMulw128 s
  | .mulc128 => Sys2Proof.Machine.execMulc128 s
  | .div128 => Sys2Proof.Machine.execDiv128 s
  | .rem128 => Sys2Proof.Machine.execRem128 s
  | .divrem128 => Sys2Proof.Machine.execDivrem128 s
  | .sqrt128 => Sys2Proof.Machine.execSqrt128 s
  | .eq128 => Sys2Proof.Machine.execEq128 s
  | .lt128 => Sys2Proof.Machine.execLt128 s
  | .lte128 => Sys2Proof.Machine.execLte128 s
  | .gt128 => Sys2Proof.Machine.execGt128 s
  | .gte128 => Sys2Proof.Machine.execGte128 s
  | .min128 => Sys2Proof.Machine.execMin128 s
  | .max128 => Sys2Proof.Machine.execMax128 s
  | .ismul128 => Sys2Proof.Machine.execIsmul128 s
  | .zero128 => Sys2Proof.Machine.execZero128 s
  | .modulus128 => Sys2Proof.Machine.execModulus128 s
  | .export256 => Sys2Proof.Machine.execExport256 s
  | .narrow256 => Sys2Proof.Machine.execNarrow256 s
  | .addc256 => Sys2Proof.Machine.execAddc256 s
  | .sub256 => Sys2Proof.Machine.execSub256 s
  | .mulc256 => Sys2Proof.Machine.execMulc256 s
  | .div256 => Sys2Proof.Machine.execDiv256 s
  | .rem256 => Sys2Proof.Machine.execRem256 s
  | .divrem256 => Sys2Proof.Machine.execDivrem256 s
  | .sqrt256 => Sys2Proof.Machine.execSqrt256 s
  | .eq256 => Sys2Proof.Machine.execEq256 s
  | .lt256 => Sys2Proof.Machine.execLt256 s
  | .lte256 => Sys2Proof.Machine.execLte256 s
  | .gt256 => Sys2Proof.Machine.execGt256 s
  | .gte256 => Sys2Proof.Machine.execGte256 s
  | .min256 => Sys2Proof.Machine.execMin256 s
  | .max256 => Sys2Proof.Machine.execMax256 s
  | .ismul256 => Sys2Proof.Machine.execIsmul256 s
  | .zero256 => Sys2Proof.Machine.execZero256 s
  | .modulus256 => Sys2Proof.Machine.execModulus256 s

end Sys2Proof.Machine
end

