-- ==== Sys2Proof/Machine/Ports.lean ====
section
/-! DEFINITION. The three port events (R10): `call` with the decoding it begins with (R24, R57), `answer` (R25),
and `reset` (R210). An event that is not enabled passes and changes no register (R213, R214). -/

namespace Sys2Proof.Machine

/-- The `call` step (R24, R57). Enabled when `READY`: the inputs are latched and the byte decoded, once, in this
step; an illegal byte raises `IllegalCommand` with the operands unexamined (R50, R191). Not enabled in `QUERY`: the
call is not accepted and nothing is latched (R213). -/
def callStep (cmd : Byte) (a b : Bus) (s : State) : Out :=
  if s.READY then
    match decode cmd with
    | .ok i => exec i (s.passEvent.latch cmd a b)
    | .error _ => .next ((s.passEvent.latch cmd a b).raise .illegalCommand)
  else .next s.passEvent

/-- The `answer` step (R25). Enabled in `QUERY`: the outstanding command verifies the candidate, whatever query it
was meant for (R217). Elsewhere it is dropped (R214). -/
def answerStep (s : State) : Out :=
  if s.WREQ then
    match decode s.CMD with
    | .ok i => if i.op.queriesWitness then exec i s else .fault .noWitnessCommand
    | .error _ => .fault .noWitnessCommand
  else .next s.passEvent

/-- The next port event, if the environment presents one. With none the block does nothing (R202, R211, R216). -/
def portStep (s : State) : Out :=
  match s.inputs with
  | [] => .next s
  | .call cmd a b :: _ => callStep cmd a b s
  | .answer _ _ :: _ => answerStep s
  | .reset :: _ => .next s.passEvent.resetRegisters

/-- `s` with a call of the byte `cmd` presented next, on the operands `A` and `B` already hold. Where a query is
outstanding the port is made ready, as it is after the call it belongs to has finished (R12, R213). -/
def State.presentCall (s : State) (cmd : Byte) : State :=
  { s with stage := if s.stage = .query then .done else s.stage,
           inputs := .call cmd s.A s.B :: s.inputs }

end Sys2Proof.Machine
end

