-- ==== Sys2Proof/Machine/Step.lean ====
section
/-! DEFINITION. One step of the machine: one port event (R10). The block has no step of its own. -/

namespace Sys2Proof.Machine

/-- One step: the next event the environment presents (R10). -/
def step (s : State) : Host.Outcome State Fault Refusal := portStep s

/-- `s` with the command whose `nbits` bits are `w` presented as the next call. The block fetches nothing (R41):
the host presents the command byte, so this is where a step finds its next instruction. -/
def State.withFetchWord (s : State) (nbits w : Nat) : State :=
  s.presentCall (BitVec.ofNat 8 (w % 2 ^ nbits))

end Sys2Proof.Machine
end

