-- ==== Sys2Proof/Machine/Listing.lean ====
section
/-! DEFINITION. The example host's listings (R54, R204), which are no part of the block: a list of calls made in
order, each witness-verified call answered at once, stopping at the first call whose `CODE` is not 0; and the
honest oracle (R119, R133). The machine uses nothing of this file. -/

namespace Sys2Proof.Machine

/-- The honest answer to a division query: the quotient and the remainder of the division theorem (R119). -/
def honestDivision (a b : Bus) : Bus × Bus := (a / b, a % b)

/-- The honest answer to a square-root query: the floor of the square root (R133). -/
def honestRoot (a : Bus) : Bus := BitVec.ofNat 256 (Nat.sqrt a.toNat)

/-- An operand of a listing line (R54): a number, or what the previous line left in a result register. -/
inductive Arg where
  | value (v : Bus)
  | res0
  | res1
  deriving DecidableEq, Repr

/-- The oracle's part of a listing line, after `<-` (R54). -/
inductive Reply where
  | candidate (wq wr : Bus)
  | honest
  deriving DecidableEq, Repr

/-- One line of a listing (R54); an omitted operand is driven with zero, an omitted answer is `none`. -/
structure Line where
  instr  : Instr
  a      : Arg
  b      : Arg
  answer : Option Reply
  deriving DecidableEq, Repr

/-- The bus value of an operand: the host copies a result register to the call port itself (R17, R54). -/
def Arg.read (s : State) : Arg → Bus
  | .value v => v
  | .res0 => s.RES0
  | .res1 => s.RES1

/-- The events of the oracle's answer to the query outstanding in `s` (R25, R54). DESIGN CHOICE
(notes/assumptions/16.md): an honest answer to a square-root query, which has no second value, carries zero in it. -/
def replyEvents (s : State) : Option Reply → List PortEvent
  | none => []
  | some (.candidate wq wr) => [.answer wq wr]
  | some .honest =>
    match s.witnessRequest with
    | some q =>
      if q.WKIND = 0 then [.answer (honestDivision q.WA q.WB).1 (honestDivision q.WA q.WB).2]
      else [.answer (honestRoot q.WA) 0]
    | none => []

/-- One line: the call, and in `QUERY` the answer right after it (R204, R216). DESIGN CHOICE
(notes/assumptions/16.md): an answer on a line that does not query is not presented, and a line that queries but
gives no answer leaves the block in `QUERY`. -/
def runLine (s : State) (l : Line) : Out :=
  match step { s with inputs := [.call (encode l.instr) (l.a.read s) (l.b.read s)] } with
  | .next t => if t.stage = .query then step { t with inputs := replyEvents t l.answer } else .next t
  | .fault r => .fault r
  | .refused r => .refused r

/-- A listing, stopping at the first line whose `CODE` is not 0 (R204). DESIGN CHOICE (notes/assumptions/16.md): a
line that leaves the block in `QUERY` ends the listing there, since the host must wait for `READY` before its next
call (R213) and `CODE` is not that line's outcome yet (R218). -/
def runListing : List Line → State → Out
  | [], s => .next s
  | l :: ls, s =>
    match runLine s l with
    | .next t => if t.stage ≠ .query ∧ t.CODE = 0 then runListing ls t else .next t
    | .fault r => .fault r
    | .refused r => .refused r

end Sys2Proof.Machine
end

