-- ==== Sys2Proof/Safety.lean ====
section
/-! DEFINITION. The terms the claims use: how a step ends (R9), the illegal bytes as R50 lists them, the invariant
of R28, the codes each command can end in (R203), and what unbounded integer arithmetic says of each command (R7).
None of it is called by the machine. -/

namespace Sys2Proof.Machine

/-! ### How a step ends (R9) -/

/-- From `s`, the call ends with the values `r0`, `r1`, exactly and without truncation, and nothing else of `s`
changes. -/
def EndsWithValue (s : State) (out : Out) (r0 r1 : Nat) : Prop :=
  out = .next { s with stage := .done, CODE := 0, RES0 := BitVec.ofNat 256 r0, RES1 := BitVec.ofNat 256 r1 } ∧
    r0 < 2 ^ 256 ∧ r1 < 2 ^ 256

/-- From `s`, the call ends in the fault of this code, and nothing of `s` but the outcome registers changes. What
the result registers hold then is left out on purpose: a claim about a faulted call must not rest on it (R14). -/
def EndsInFault (s : State) (out : Out) (code : Nat) : Prop :=
  code < 16 ∧ ∃ r0 r1 : Bus,
    out = .next { s with stage := .done, CODE := BitVec.ofNat 4 code, RES0 := r0, RES1 := r1 }

/-- From `s`, the call waits for the oracle, and nothing of `s` but `stage` changes (R9, R218). -/
def Waits (s : State) (out : Out) : Prop := out = .next { s with stage := .query }

/-- The state in which an accepted call is run (R24): the inputs latched, the event passed. -/
def accepted (s : State) (cmd : Byte) (a b : Bus) (rest : List PortEvent) : State :=
  { s with CMD := cmd, A := a, B := b, inputs := rest }

/-! ### Illegal bytes -/

/-- The list of illegal bytes as R50 spells it out, independent of the decoder. -/
def illegalByte (cmd : Byte) : Bool :=
  let w := cmd.toNat / 64
  let grp := cmd.toNat / 8 % 8
  let fn := cmd.toNat % 8
  w == 3 || grp == 0 ||
  (grp == 1 && (fn ≥ 2 || (fn == 0 && w != 2) || (fn == 1 && w == 0))) ||
  (grp == 2 && (fn ≥ 3 || (fn == 0 && w == 2))) ||
  (grp == 3 && (fn ≥ 2 || (fn == 0 && w == 2))) ||
  (grp == 4 && fn ≥ 3) || (grp == 5 && fn ≥ 1) ||
  (grp == 7 && (fn ≥ 2 || w == 0))

/-! ### The invariant of R28 -/

/-- The width in bits of the value a command leaves in `RES0` (R52): the exact result of a widening command needs
twice the width, a narrowed value half of it, an exported one at most `EXPORT_BITS`, a truth value one bit. -/
def resultBits (exportBits : Nat) (i : Instr) : Nat :=
  match i.op with
  | .exportTo => exportBits
  | .narrow => i.width.halfBits
  | .addw | .mulw => i.width.wideBits
  | .eq | .lt | .lte | .gt | .gte | .ismul => 1
  | .addc | .sub | .mulc | .div | .rem | .divrem | .sqrt | .min | .max | .zero | .modulus => i.width.bits

/-- What an outstanding query promises the oracle (R28, R224): the latched byte is a witness-verified command, its
operands fit its width, and a divisor is not zero. -/
def QueryIsSound (s : State) : Prop :=
  ∃ i, decode s.CMD = .ok i ∧ i.op.queriesWitness = true ∧ s.A.toNat < 2 ^ i.width.bits ∧
    (i.op.dividesByWitness = true → s.B.toNat < 2 ^ i.width.bits ∧ s.B ≠ 0)

/-- What a completed call without a fault leaves (R28, R52). -/
def ValueIsInRange (s : State) : Prop :=
  ∃ i, decode s.CMD = .ok i ∧ s.RES0.toNat < 2 ^ resultBits s.cfg.exportBits i ∧
    (i.op ≠ .divrem → s.RES1 = 0)

/-- The invariant of R28, with the range of `EXPORT_BITS` (R5) and of `CODE` (R15). `stage != 3` holds by the type
of `stage`. -/
structure Inv (s : State) : Prop where
  config : s.cfg.wellFormed = true
  code   : s.CODE.toNat ≤ 10
  idle   : s.stage = .idle → s.CMD = 0 ∧ s.A = 0 ∧ s.B = 0 ∧ s.RES0 = 0 ∧ s.RES1 = 0 ∧ s.CODE = 0
  query  : s.stage = .query → QueryIsSound s
  fault  : s.stage = .done → s.CODE ≠ 0 → s.RES0 = 0 ∧ s.RES1 = 0
  value  : s.stage = .done → s.CODE = 0 → ValueIsInRange s

/-! ### The codes a command can end in (R203) -/

/-- R203's cells `c`: the codes a command can end in within its `call` step. -/
def callCodes (i : Instr) : List Nat :=
  let own := match i.op with
    | .exportTo | .narrow => [0, 8]
    | .addc | .mulc => [0, 1]
    | .sub => [0, 2]
    | .div | .rem | .divrem | .ismul => [3]
    | .sqrt => []
    | .addw | .mulw | .eq | .lt | .lte | .gt | .gte | .min | .max | .zero | .modulus => [0]
  if i.width = .w256 ∨ i.op.usesA = false then own else own ++ [10]

/-- R203's cells `a`: the codes a command can end in within its `answer` step. -/
def answerCodes (i : Instr) : List Nat :=
  match i.op with
  | .div | .rem | .divrem | .ismul => [0, 4, 5]
  | .sqrt => [0, 6, 7]
  | .exportTo | .narrow | .addw | .addc | .sub | .mulw | .mulc
  | .eq | .lt | .lte | .gt | .gte | .min | .max | .zero | .modulus => []

/-! ### What integer arithmetic says (R7) -/

/-- How a step of a call ends, by unbounded integer arithmetic. -/
inductive Verdict where
  /-- The call ends with these values. -/
  | value (r0 r1 : Nat)
  /-- The call ends in the fault of this code (R181). -/
  | fault (code : Nat)
  /-- The call waits for the oracle. -/
  | query
  deriving DecidableEq, Repr

/-- 1 for true, 0 for false (R52). -/
def bit (p : Bool) : Nat := if p then 1 else 0

/-- What a legal command does in its `call` step on operands `a`, `b` at a width of `W` bits, in unbounded integers
(R7, with the operand check of R51 first, R190). -/
def exactCall (exportBits W a b : Nat) (op : Op) : Verdict :=
  if (op.usesA = true ∧ 2 ^ W ≤ a) ∨ (op.usesB = true ∧ 2 ^ W ≤ b) then .fault 10
  else match op with
    | .exportTo => if a < 2 ^ exportBits then .value a 0 else .fault 8
    | .narrow => if a < 2 ^ (W / 2) then .value a 0 else .fault 8
    | .addw => .value (a + b) 0
    | .addc => if a + b < 2 ^ W then .value (a + b) 0 else .fault 1
    | .sub => if b ≤ a then .value (a - b) 0 else .fault 2
    | .mulw => .value (a * b) 0
    | .mulc => if a * b < 2 ^ W then .value (a * b) 0 else .fault 1
    | .div | .rem | .divrem | .ismul => if b = 0 then .fault 3 else .query
    | .sqrt => .query
    | .eq => .value (bit (a == b)) 0
    | .lt => .value (bit (decide (a < b))) 0
    | .lte => .value (bit (decide (a ≤ b))) 0
    | .gt => .value (bit (decide (b < a))) 0
    | .gte => .value (bit (decide (b ≤ a))) 0
    | .min => .value (min a b) 0
    | .max => .value (max a b) 0
    | .zero => .value 0 0
    | .modulus => .value (2 ^ (W / 2)) 0

/-- What a witness-verified command does with the answer `wq`, `wr` for the operands `a`, `b`, in unbounded
integers (R7, R106, R126). The other commands have no such step. -/
def exactAnswer (a b wq wr : Nat) (op : Op) : Verdict :=
  match op with
  | .div => divided wq 0
  | .rem => divided wr 0
  | .divrem => divided wq wr
  | .ismul => divided (bit (wr == 0)) 0
  | .sqrt =>
    if a < wq * wq then .fault 6
    else if (wq + 1) * (wq + 1) ≤ a then .fault 7
    else .value wq 0
  | .exportTo | .narrow | .addw | .addc | .sub | .mulw | .mulc
  | .eq | .lt | .lte | .gt | .gte | .min | .max | .zero | .modulus => .query
where
  /-- Stages 3 to 5 of the division protocol. -/
  divided (r0 r1 : Nat) : Verdict :=
    if b ≤ wr then .fault 4
    else if wq * b + wr ≠ a then .fault 5
    else .value r0 r1

/-- A step from `s` ends as the verdict says. -/
def EndsAs (s : State) (out : Out) : Verdict → Prop
  | .value r0 r1 => EndsWithValue s out r0 r1
  | .fault code => EndsInFault s out code
  | .query => Waits s out

end Sys2Proof.Machine
end

