-- ==== Sys2Proof/Certificates/Slice0/Obligations.lean ====
section
/-! DEFINITION. The statements for the provers, one `def Obligations.<Name> : Prop` each, in the order of
OBLIGATIONS.json. -/

open Sys2Proof Sys2Proof.Machine

/-! ### Encoding -/

/-- R48: every command's byte is `(W << 6) | (GRP << 3) | FN` and its mnemonic `NAME.w`; `ADDC.128`, with
`W = 1, GRP = 2, FN = 1`, is `0x51`. -/
def Obligations.CommandByteIsItsFields : Prop :=
  (∀ i : Instr, (encode i).toNat = i.width.code <<< 6 ||| i.op.group <<< 3 ||| i.op.function) ∧
  (∀ i : Instr, i.mnemonic = i.op.name ++ "." ++ i.width.name ∧ i.width.name ∈ ["64", "128", "256"]) ∧
  Instr.mnemonic .addc128 = "ADDC.128" ∧
  Width.code .w128 = 1 ∧ Op.group .addc = 2 ∧ Op.function .addc = 1 ∧ encode .addc128 = 0x51

/-- One word of each family of R49 decodes to the command it is listed for. -/
def Obligations.ListedWordsDecode : Prop :=
  decode 0x88 = .ok .export256 ∧ decode 0x49 = .ok .narrow128 ∧ decode 0x50 = .ok .addw128 ∧
  decode 0x92 = .ok .sub256 ∧ decode 0x99 = .ok .mulc256 ∧ decode 0x22 = .ok .divrem64 ∧
  decode 0x68 = .ok .sqrt128 ∧ decode 0x37 = .ok .ismul64 ∧ decode 0xB9 = .ok .modulus256 ∧
  decodeTableWord 8 0x51 = some .addc128

/-- Decoding and encoding are inverse to each other: every well-formed command is read back from its byte, alone
and at the head of any bytes, and a byte that decodes is the byte of the command it decodes to. -/
def Obligations.DecodeAndEncodeAgree : Prop :=
  (∀ i : Instr, i.wellFormed = true →
    decode (encode i) = .ok i ∧ ∀ rest, decodeBytes (encode i :: rest) = .ok (i, rest)) ∧
  (∀ (cmd : Byte) (i : Instr), decode cmd = .ok i → i.wellFormed = true ∧ encode i = cmd)

/-- R191: a call that is accepted ends in code 9 exactly when its byte is one of those R50 lists as illegal, with
any operands at all and with no query. -/
def Obligations.IllegalCommandExactlyOnIllegalBytes : Prop :=
  ∀ (s : State) (cmd : Byte) (a b : Bus) (rest : List PortEvent),
    s.stage ≠ .query → s.inputs = .call cmd a b :: rest →
    (illegalByte cmd = true → EndsInFault (accepted s cmd a b rest) (step s) 9) ∧
    (illegalByte cmd = false →
      ∃ t, step s = .next t ∧ (t.stage = .query ∨ t.stage = .done ∧ t.CODE ≠ 9))

/-! ### Ports, reset, step -/

/-- An accepted call whose byte decodes runs the decoded command, on the latched inputs and with the event passed;
this is all that a step adds around it (R24, R57). -/
def Obligations.CallStepRunsTheDecodedCommand : Prop :=
  ∀ (s : State) (cmd : Byte) (a b : Bus) (rest : List PortEvent) (i : Instr),
    s.stage ≠ .query → s.inputs = .call cmd a b :: rest → decode cmd = .ok i →
    step s = exec i { s with CMD := cmd, A := a, B := b, inputs := rest }

/-- An answer in `QUERY` runs the command whose byte is latched; the command takes the answer itself (R25). -/
def Obligations.AnswerStepRunsTheLatchedCommand : Prop :=
  ∀ (s : State) (wq wr : Bus) (rest : List PortEvent) (i : Instr),
    s.stage = .query → s.inputs = .answer wq wr :: rest → decode s.CMD = .ok i →
    i.op.queriesWitness = true → step s = exec i s

/-- R213, R214, R211: a call in `QUERY`, an answer outside it, and no event at all change no register. That the
model's environment goes on to its next event is the model's own (notes/assumptions/4.md). -/
def Obligations.DisabledEventsChangeNoRegister : Prop :=
  (∀ (s : State) (cmd : Byte) (a b : Bus) (rest : List PortEvent),
    s.stage = .query → s.inputs = .call cmd a b :: rest → step s = .next { s with inputs := rest }) ∧
  (∀ (s : State) (wq wr : Bus) (rest : List PortEvent),
    s.stage ≠ .query → s.inputs = .answer wq wr :: rest → step s = .next { s with inputs := rest }) ∧
  (∀ s : State, s.inputs = [] → step s = .next s)

/-- R210: whatever the state, `reset` gives the listed values; after it `STATUS = 0x00`, `READY = 1`, `DONE_O = 0`,
`WREQ = 0`; and `State.reset` is that state. -/
def Obligations.ResetGivesTheListedValues : Prop :=
  (∀ (s : State) (rest : List PortEvent), s.inputs = .reset :: rest →
    step s = .next { stage := .idle, CMD := 0x00, A := 0, B := 0, RES0 := 0, RES1 := 0, CODE := 0,
                     cfg := s.cfg, inputs := rest }) ∧
  (∀ t : State, t.stage = .idle → t.CODE = 0 →
    t.STATUS = 0x00 ∧ t.READY = true ∧ t.DONE_O = false ∧ t.WREQ = false) ∧
  State.reset.stage = .idle ∧ State.reset.CMD = 0x00 ∧ State.reset.A = 0 ∧ State.reset.B = 0 ∧
  State.reset.RES0 = 0 ∧ State.reset.RES1 = 0 ∧ State.reset.CODE = 0

/-- R16, R11, R25: the status byte's fields, with the code of each stage written out, and the three level outputs. -/
def Obligations.ResponsePortShowsTheState : Prop :=
  ∀ s : State,
    s.STATUS.extractLsb' 0 4 = s.CODE ∧ s.STATUS.extractLsb' 4 2 = s.stage.bits ∧
    s.STATUS.extractLsb' 6 2 = 0 ∧
    (s.stage = .idle → s.STATUS.extractLsb' 4 2 = 0) ∧ (s.stage = .query → s.STATUS.extractLsb' 4 2 = 1) ∧
    (s.stage = .done → s.STATUS.extractLsb' 4 2 = 2) ∧
    (s.READY = true ↔ s.stage ≠ .query) ∧ (s.DONE_O = true ↔ s.stage = .done) ∧ (s.WREQ = true ↔ s.stage = .query)

/-- R25, R224: in `QUERY` the witness port asks for what the latched call needs, within its width and with a
divisor that is not zero, and goes on asking the same until the answer or a reset. -/
def Obligations.WitnessRequestDescribesTheCall : Prop :=
  ∀ s : State, Inv s → s.stage = .query →
    (∃ i q, decode s.CMD = .ok i ∧ s.witnessRequest = some q ∧
      q.WW.toNat = i.width.code ∧ q.WA = s.A ∧ q.WA.toNat < 2 ^ i.width.bits ∧
      (i.op.dividesByWitness = true →
        q.WKIND = 0 ∧ q.WB = s.B ∧ 0 < q.WB.toNat ∧ q.WB.toNat < 2 ^ i.width.bits) ∧
      (i.op = .sqrt → q.WKIND = 1 ∧ q.WB = 0)) ∧
    (∀ t, step s = .next t → t.stage = .query → t.witnessRequest = s.witnessRequest)

/-! ### Invariant, progress, frames -/

/-- The reset state meets the invariant of R28. -/
def Obligations.ResetStateMeetsTheInvariant : Prop := Inv State.reset

/-- R28: every step keeps the invariant, from every state that meets it. -/
def Obligations.EveryStepKeepsTheInvariant : Prop :=
  ∀ s t : State, Inv s → step s = .next t → Inv t

/-- From every state that meets the invariant a step answers a next state: no fault kind stops the machine (R180,
R194), and no command is refused. -/
def Obligations.NoStepStopsTheMachine : Prop :=
  ∀ s : State, Inv s → ∃ t, step s = .next t

/-- R193: a call that ends in a fault writes `CODE`, zeroes the result registers, sets `stage` to `DONE`, and keeps
everything else, the latched inputs among it: first for an accepted call, then for an answer. -/
def Obligations.FaultEntryWritesOnlyTheOutcome : Prop :=
  (∀ (s t : State) (cmd : Byte) (a b : Bus) (rest : List PortEvent),
    s.stage ≠ .query → s.inputs = .call cmd a b :: rest → step s = .next t → t.stage = .done → t.CODE ≠ 0 →
    t = { s with CMD := cmd, A := a, B := b, inputs := rest,
                 stage := .done, CODE := t.CODE, RES0 := 0, RES1 := 0 }) ∧
  (∀ (s t : State) (wq wr : Bus) (rest : List PortEvent),
    s.stage = .query → s.inputs = .answer wq wr :: rest → step s = .next t → t.CODE ≠ 0 →
    t = { s with inputs := rest, stage := .done, CODE := t.CODE, RES0 := 0, RES1 := 0 })

/-- No command, whatever it ends in, changes the latched inputs or the parameters, or any event but the answer it
takes; and a command that enters `QUERY` changes `stage` alone (R9, R13, R218). -/
def Obligations.CommandsWriteOnlyTheOutcomeRegisters : Prop :=
  ∀ (i : Instr) (s t : State), exec i s = .next t →
    t.CMD = s.CMD ∧ t.A = s.A ∧ t.B = s.B ∧ t.cfg = s.cfg ∧
    (t.inputs = s.inputs ∨
      s.stage = .query ∧ i.op.queriesWitness = true ∧ ∃ wq wr, s.inputs = .answer wq wr :: t.inputs) ∧
    (t.stage = .query → t = { s with stage := .query })

/-- R8: a call's outcome depends on its byte, its operands, the parameters, and, where it is witness-verified, the
answer: not on what earlier calls left. -/
def Obligations.OutcomeDependsOnTheCallAlone : Prop :=
  (∀ (s₁ s₂ t₁ : State) (cmd : Byte) (a b : Bus) (rest₁ rest₂ : List PortEvent),
    s₁.stage ≠ .query → s₂.stage ≠ .query → s₁.cfg = s₂.cfg →
    s₁.inputs = .call cmd a b :: rest₁ → s₂.inputs = .call cmd a b :: rest₂ → step s₁ = .next t₁ →
    ∃ t₂, step s₂ = .next t₂ ∧ t₂.stage = t₁.stage ∧ t₂.CMD = t₁.CMD ∧ t₂.A = t₁.A ∧ t₂.B = t₁.B ∧
      (t₁.stage = .done → t₂.CODE = t₁.CODE ∧ (t₁.CODE = 0 → t₂.RES0 = t₁.RES0 ∧ t₂.RES1 = t₁.RES1))) ∧
  (∀ (s₁ s₂ t₁ : State) (wq wr : Bus) (rest₁ rest₂ : List PortEvent),
    s₁.stage = .query → s₂.stage = .query → s₁.CMD = s₂.CMD → s₁.A = s₂.A → s₁.B = s₂.B →
    s₁.inputs = .answer wq wr :: rest₁ → s₂.inputs = .answer wq wr :: rest₂ → step s₁ = .next t₁ →
    ∃ t₂, step s₂ = .next t₂ ∧ t₂.stage = t₁.stage ∧ t₂.CODE = t₁.CODE ∧
      (t₁.CODE = 0 → t₂.RES0 = t₁.RES0 ∧ t₂.RES1 = t₁.RES1))

/-- R203: a command that ends in its `call` step ends in one of its `c` cells, and one that takes an answer ends in
one of its `a` cells. -/
def Obligations.CommandsEndInTheListedCodes : Prop :=
  (∀ (i : Instr) (s t : State), s.stage ≠ .query → exec i s = .next t → t.stage = .done →
    t.CODE.toNat ∈ callCodes i) ∧
  (∀ (i : Instr) (s t : State) (wq wr : Bus) (rest : List PortEvent),
    s.stage = .query → s.inputs = .answer wq wr :: rest → i.op.queriesWitness = true → exec i s = .next t →
    t.stage = .done ∧ t.CODE.toNat ∈ answerCodes i)

/-- R192: a legal command's call ends in code 10 exactly when an operand it uses has a bit at or above its width. -/
def Obligations.OperandRangeExactlyWhenAUsedOperandIsTooWide : Prop :=
  ∀ (s : State) (cmd : Byte) (a b : Bus) (rest : List PortEvent) (i : Instr),
    s.stage ≠ .query → s.inputs = .call cmd a b :: rest → decode cmd = .ok i →
    (EndsInFault (accepted s cmd a b rest) (step s) 10 ↔
      i.op.usesA = true ∧ 2 ^ i.width.bits ≤ a.toNat ∨ i.op.usesB = true ∧ 2 ^ i.width.bits ≤ b.toNat)

/-! ### Datapath -/

/-- R70: the limb adder: the sum modulo `2^64`, the carry its quotient, and 65 bits enough for both. -/
def Obligations.LimbAdderIsExact : Prop :=
  ∀ (x y : Limb) (cin : BitVec 1),
    (adc64 x y cin).1.toNat = (x.toNat + y.toNat + cin.toNat) % 2 ^ 64 ∧
    (adc64 x y cin).2.toNat = (x.toNat + y.toNat + cin.toNat) / 2 ^ 64 ∧
    x.toNat + y.toNat + cin.toNat ≤ 2 ^ 65 - 1

/-- R71: the limb subtractor. -/
def Obligations.LimbSubtractorIsExact : Prop :=
  ∀ (x y : Limb) (bin : BitVec 1),
    ((sbb64 x y bin).2 = 1 ↔ (x.toNat : Int) - y.toNat - bin.toNat < 0) ∧
    ((sbb64 x y bin).1.toNat : Int) =
      (x.toNat : Int) - y.toNat - bin.toNat + (sbb64 x y bin).2.toNat * 2 ^ 64

/-- R72: the carry chain over any number of limbs gives the exact sum. -/
def Obligations.CarryChainIsExact : Prop :=
  ∀ (n : Nat) (a b : BitVec (64 * n)),
    a.toNat + b.toNat = (addN n a b).2.toNat * 2 ^ (64 * n) + (addN n a b).1.toNat

/-- R73: the borrow chain over any number of limbs gives the exact difference, and borrows exactly when the
minuend is the smaller. -/
def Obligations.BorrowChainIsExact : Prop :=
  ∀ (n : Nat) (a b : BitVec (64 * n)),
    ((a.toNat : Int) - b.toNat = (subN n a b).1.toNat - (subN n a b).2.toNat * 2 ^ (64 * n)) ∧
    ((subN n a b).2 = 1 ↔ a.toNat < b.toNat)

/-- R90: the limb multiplier, with the bound on its high half. -/
def Obligations.LimbMultiplierIsExact : Prop :=
  ∀ x y : Limb,
    (mul64 x y).1.toNat = x.toNat * y.toNat % 2 ^ 64 ∧ (mul64 x y).2.toNat = x.toNat * y.toNat / 2 ^ 64 ∧
    (mul64 x y).2.toNat ≤ 2 ^ 64 - 2

/-- R91, R92: the cascaded multipliers give the exact product, at every width. -/
def Obligations.CascadedMultipliersAreExact : Prop :=
  (∀ a b : BitVec 128, (mulwide128 a b).toNat = a.toNat * b.toNat) ∧
  (∀ a b : BitVec 256, (mulwide256 a b).toNat = a.toNat * b.toNat) ∧
  (∀ (w : Width) (a b : BitVec w.bits), (mulwide w a b).toNat = a.toNat * b.toNat)

/-- R140: the limb comparator decides the order of the integers, over any number of limbs; it equals the borrow out
of the subtractor. -/
def Obligations.ComparatorDecidesTheOrder : Prop :=
  ∀ (n : Nat) (a b : BitVec (64 * n)),
    (ltN n a b = true ↔ a.toNat < b.toNat) ∧ (eqN n a b = true ↔ a.toNat = b.toNat) ∧
    (ltN n a b = true ↔ (subN n a b).2 = 1)

/-- R109: for operands of the width and a remainder below the divisor, the limb datapath accepts exactly the
candidates that reconstruct the dividend, as integers. -/
def Obligations.DivisionDatapathDecidesReconstruction : Prop :=
  ∀ (w : Width) (a b wq wr : Bus),
    a.toNat < 2 ^ w.bits → b.toNat < 2 ^ w.bits → wr.toNat < b.toNat →
    (reconOk w a b wq wr = true ↔ wq.toNat * b.toNat + wr.toNat = a.toNat)

/-- R129: for a radicand of the width, the limb datapath answers as the two bounds of R126 do, as integers, for
every 256-bit candidate. -/
def Obligations.SquareRootDatapathDecidesBothBounds : Prop :=
  ∀ (w : Width) (a wq : Bus), a.toNat < 2 ^ w.bits →
    (sqrtCheck w a wq = .overestimate ↔ a.toNat < wq.toNat * wq.toNat) ∧
    (sqrtCheck w a wq = .underestimate ↔ (wq.toNat + 1) * (wq.toNat + 1) ≤ a.toNat) ∧
    (sqrtCheck w a wq = .accept ↔
      wq.toNat * wq.toNat ≤ a.toNat ∧ a.toNat < (wq.toNat + 1) * (wq.toNat + 1))

/-- R60 to R62: the limbs of a value are its digits in base `2^64`, and splitting and joining are inverse to each
other. -/
def Obligations.SplittingAndJoiningLimbsAreInverse : Prop :=
  (∀ (n : Nat) (v : BitVec (64 * n)) (i : Nat), i < n →
    (toWide n v)[i]? = some (BitVec.ofNat 64 (v.toNat / 2 ^ (64 * i) % 2 ^ 64))) ∧
  (∀ (n : Nat) (v : BitVec (64 * n)), fromWide (64 * n) (toWide n v) = v ∧ limbsValue (toWide n v) = v.toNat) ∧
  (∀ ls : List Limb, toWide ls.length (fromWide (64 * ls.length) ls) = ls)

/-- R22, R23: the structured types lie on a bus as stated, with the values stated, and every bus is one of them. -/
def Obligations.StructuredTypesLieOnTheBus : Prop :=
  (∀ x : U128, x.flat.toNat = x.value ∧ U128.ofFlat x.flat = x) ∧
  (∀ x : U256, x.flat.toNat = x.value ∧ U256.ofFlat x.flat = x ∧
    x.value = x.high.high.toNat * 2 ^ 192 + x.high.low.toNat * 2 ^ 128 + x.low.high.toNat * 2 ^ 64 + x.low.low.toNat) ∧
  (∀ v : Bus, (U256.ofFlat v).flat = v)

/-! ### Conversions -/

/-- R63: `EXPORT.256` passes every value below `2^EXPORT_BITS` and refuses the rest; there is no such command at the
other widths. -/
def Obligations.ExportPassesBelowTheLimit : Prop :=
  encode .export256 = 0x88 ∧ decode 0x08 = .error .noCommandAtWidth ∧ decode 0x48 = .error .noCommandAtWidth ∧
  ∀ s : State,
    (s.A.toNat < 2 ^ s.cfg.exportBits → EndsWithValue s (exec .export256 s) s.A.toNat 0) ∧
    (2 ^ s.cfg.exportBits ≤ s.A.toNat → EndsInFault s (exec .export256 s) 8)

/-- R64, R65: `NARROW.128` and `NARROW.256` pass every value of half the width and refuse the rest, after the
operand check; there is no `NARROW.64`. -/
def Obligations.NarrowPassesBelowHalfTheWidth : Prop :=
  encode .narrow128 = 0x49 ∧ encode .narrow256 = 0x89 ∧ decode 0x09 = .error .noCommandAtWidth ∧
  ∀ s : State,
    (s.A.toNat < 2 ^ 64 → EndsWithValue s (exec .narrow128 s) s.A.toNat 0) ∧
    (2 ^ 64 ≤ s.A.toNat → s.A.toNat < 2 ^ 128 → EndsInFault s (exec .narrow128 s) 8) ∧
    (2 ^ 128 ≤ s.A.toNat → EndsInFault s (exec .narrow128 s) 10) ∧
    (s.A.toNat < 2 ^ 128 → EndsWithValue s (exec .narrow256 s) s.A.toNat 0) ∧
    (2 ^ 128 ≤ s.A.toNat → EndsInFault s (exec .narrow256 s) 8)

/-! ### Addition, subtraction, multiplication -/

/-- R74, R75: the widening sums are exact and fail only on operands too wide. -/
def Obligations.WideningAddIsExact : Prop :=
  encode .addw64 = 0x10 ∧ encode .addw128 = 0x50 ∧
  ∀ s : State,
    (s.A.toNat < 2 ^ 64 → s.B.toNat < 2 ^ 64 →
      EndsWithValue s (exec .addw64 s) (s.A.toNat + s.B.toNat) 0) ∧
    (2 ^ 64 ≤ s.A.toNat ∨ 2 ^ 64 ≤ s.B.toNat → EndsInFault s (exec .addw64 s) 10) ∧
    (s.A.toNat < 2 ^ 128 → s.B.toNat < 2 ^ 128 →
      EndsWithValue s (exec .addw128 s) (s.A.toNat + s.B.toNat) 0) ∧
    (2 ^ 128 ≤ s.A.toNat ∨ 2 ^ 128 ≤ s.B.toNat → EndsInFault s (exec .addw128 s) 10)

/-- R76 to R78: the checked sums are exact, and `Overflow` is raised exactly when the sum exceeds the width. -/
def Obligations.CheckedAddIsExactOrOverflows : Prop :=
  encode .addc64 = 0x11 ∧ encode .addc128 = 0x51 ∧ encode .addc256 = 0x91 ∧
  ∀ s : State,
    (s.A.toNat < 2 ^ 64 → s.B.toNat < 2 ^ 64 →
      (s.A.toNat + s.B.toNat ≤ 2 ^ 64 - 1 → EndsWithValue s (exec .addc64 s) (s.A.toNat + s.B.toNat) 0) ∧
      (s.A.toNat + s.B.toNat > 2 ^ 64 - 1 → EndsInFault s (exec .addc64 s) 1)) ∧
    (2 ^ 64 ≤ s.A.toNat ∨ 2 ^ 64 ≤ s.B.toNat → EndsInFault s (exec .addc64 s) 10) ∧
    (s.A.toNat < 2 ^ 128 → s.B.toNat < 2 ^ 128 →
      (s.A.toNat + s.B.toNat ≤ 2 ^ 128 - 1 → EndsWithValue s (exec .addc128 s) (s.A.toNat + s.B.toNat) 0) ∧
      (s.A.toNat + s.B.toNat > 2 ^ 128 - 1 → EndsInFault s (exec .addc128 s) 1)) ∧
    (2 ^ 128 ≤ s.A.toNat ∨ 2 ^ 128 ≤ s.B.toNat → EndsInFault s (exec .addc128 s) 10) ∧
    (s.A.toNat + s.B.toNat ≤ 2 ^ 256 - 1 → EndsWithValue s (exec .addc256 s) (s.A.toNat + s.B.toNat) 0) ∧
    (s.A.toNat + s.B.toNat > 2 ^ 256 - 1 → EndsInFault s (exec .addc256 s) 1)

/-- R79 to R81: the checked differences are exact, and `Underflow` is raised exactly when the minuend is the
smaller. -/
def Obligations.CheckedSubIsExactOrUnderflows : Prop :=
  encode .sub64 = 0x12 ∧ encode .sub128 = 0x52 ∧ encode .sub256 = 0x92 ∧
  ∀ s : State,
    (s.A.toNat < 2 ^ 64 → s.B.toNat < 2 ^ 64 →
      (s.B.toNat ≤ s.A.toNat → EndsWithValue s (exec .sub64 s) (s.A.toNat - s.B.toNat) 0) ∧
      (s.A.toNat < s.B.toNat → EndsInFault s (exec .sub64 s) 2)) ∧
    (2 ^ 64 ≤ s.A.toNat ∨ 2 ^ 64 ≤ s.B.toNat → EndsInFault s (exec .sub64 s) 10) ∧
    (s.A.toNat < 2 ^ 128 → s.B.toNat < 2 ^ 128 →
      (s.B.toNat ≤ s.A.toNat → EndsWithValue s (exec .sub128 s) (s.A.toNat - s.B.toNat) 0) ∧
      (s.A.toNat < s.B.toNat → EndsInFault s (exec .sub128 s) 2)) ∧
    (2 ^ 128 ≤ s.A.toNat ∨ 2 ^ 128 ≤ s.B.toNat → EndsInFault s (exec .sub128 s) 10) ∧
    (s.B.toNat ≤ s.A.toNat → EndsWithValue s (exec .sub256 s) (s.A.toNat - s.B.toNat) 0) ∧
    (s.A.toNat < s.B.toNat → EndsInFault s (exec .sub256 s) 2)

/-- R93, R94: the widening products are exact and fail only on operands too wide. -/
def Obligations.WideningMultiplyIsExact : Prop :=
  encode .mulw64 = 0x18 ∧ encode .mulw128 = 0x58 ∧
  ∀ s : State,
    (s.A.toNat < 2 ^ 64 → s.B.toNat < 2 ^ 64 →
      EndsWithValue s (exec .mulw64 s) (s.A.toNat * s.B.toNat) 0) ∧
    (2 ^ 64 ≤ s.A.toNat ∨ 2 ^ 64 ≤ s.B.toNat → EndsInFault s (exec .mulw64 s) 10) ∧
    (s.A.toNat < 2 ^ 128 → s.B.toNat < 2 ^ 128 →
      EndsWithValue s (exec .mulw128 s) (s.A.toNat * s.B.toNat) 0) ∧
    (2 ^ 128 ≤ s.A.toNat ∨ 2 ^ 128 ≤ s.B.toNat → EndsInFault s (exec .mulw128 s) 10)

/-- R95 to R97: the checked products are exact, and `Overflow` is raised exactly when the product exceeds the
width. -/
def Obligations.CheckedMultiplyIsExactOrOverflows : Prop :=
  encode .mulc64 = 0x19 ∧ encode .mulc128 = 0x59 ∧ encode .mulc256 = 0x99 ∧
  ∀ s : State,
    (s.A.toNat < 2 ^ 64 → s.B.toNat < 2 ^ 64 →
      (s.A.toNat * s.B.toNat ≤ 2 ^ 64 - 1 → EndsWithValue s (exec .mulc64 s) (s.A.toNat * s.B.toNat) 0) ∧
      (s.A.toNat * s.B.toNat > 2 ^ 64 - 1 → EndsInFault s (exec .mulc64 s) 1)) ∧
    (2 ^ 64 ≤ s.A.toNat ∨ 2 ^ 64 ≤ s.B.toNat → EndsInFault s (exec .mulc64 s) 10) ∧
    (s.A.toNat < 2 ^ 128 → s.B.toNat < 2 ^ 128 →
      (s.A.toNat * s.B.toNat ≤ 2 ^ 128 - 1 → EndsWithValue s (exec .mulc128 s) (s.A.toNat * s.B.toNat) 0) ∧
      (s.A.toNat * s.B.toNat > 2 ^ 128 - 1 → EndsInFault s (exec .mulc128 s) 1)) ∧
    (2 ^ 128 ≤ s.A.toNat ∨ 2 ^ 128 ≤ s.B.toNat → EndsInFault s (exec .mulc128 s) 10) ∧
    (s.A.toNat * s.B.toNat ≤ 2 ^ 256 - 1 → EndsWithValue s (exec .mulc256 s) (s.A.toNat * s.B.toNat) 0) ∧
    (s.A.toNat * s.B.toNat > 2 ^ 256 - 1 → EndsInFault s (exec .mulc256 s) 1)

/-! ### Comparisons, minimum, maximum, constants -/

/-- R141 to R146: `EQ` and `LT` at the three widths. -/
def Obligations.EqAndLtCompareTheIntegers : Prop :=
  encode .eq64 = 0x30 ∧ encode .eq128 = 0x70 ∧ encode .eq256 = 0xB0 ∧
  encode .lt64 = 0x31 ∧ encode .lt128 = 0x71 ∧ encode .lt256 = 0xB1 ∧
  ∀ s : State,
    (s.A.toNat < 2 ^ 64 → s.B.toNat < 2 ^ 64 →
      EndsWithValue s (exec .eq64 s) (if s.A.toNat = s.B.toNat then 1 else 0) 0 ∧
      EndsWithValue s (exec .lt64 s) (if s.A.toNat < s.B.toNat then 1 else 0) 0) ∧
    (2 ^ 64 ≤ s.A.toNat ∨ 2 ^ 64 ≤ s.B.toNat →
      EndsInFault s (exec .eq64 s) 10 ∧ EndsInFault s (exec .lt64 s) 10) ∧
    (s.A.toNat < 2 ^ 128 → s.B.toNat < 2 ^ 128 →
      EndsWithValue s (exec .eq128 s) (if s.A.toNat = s.B.toNat then 1 else 0) 0 ∧
      EndsWithValue s (exec .lt128 s) (if s.A.toNat < s.B.toNat then 1 else 0) 0) ∧
    (2 ^ 128 ≤ s.A.toNat ∨ 2 ^ 128 ≤ s.B.toNat →
      EndsInFault s (exec .eq128 s) 10 ∧ EndsInFault s (exec .lt128 s) 10) ∧
    EndsWithValue s (exec .eq256 s) (if s.A.toNat = s.B.toNat then 1 else 0) 0 ∧
    EndsWithValue s (exec .lt256 s) (if s.A.toNat < s.B.toNat then 1 else 0) 0

/-- R147 to R155: `LTE`, `GT` and `GTE` at the three widths. -/
def Obligations.LteGtAndGteCompareTheIntegers : Prop :=
  encode .lte64 = 0x32 ∧ encode .lte128 = 0x72 ∧ encode .lte256 = 0xB2 ∧
  encode .gt64 = 0x33 ∧ encode .gt128 = 0x73 ∧ encode .gt256 = 0xB3 ∧
  encode .gte64 = 0x34 ∧ encode .gte128 = 0x74 ∧ encode .gte256 = 0xB4 ∧
  ∀ s : State,
    (s.A.toNat < 2 ^ 64 → s.B.toNat < 2 ^ 64 →
      EndsWithValue s (exec .lte64 s) (if s.A.toNat ≤ s.B.toNat then 1 else 0) 0 ∧
      EndsWithValue s (exec .gt64 s) (if s.A.toNat > s.B.toNat then 1 else 0) 0 ∧
      EndsWithValue s (exec .gte64 s) (if s.A.toNat ≥ s.B.toNat then 1 else 0) 0) ∧
    (2 ^ 64 ≤ s.A.toNat ∨ 2 ^ 64 ≤ s.B.toNat →
      EndsInFault s (exec .lte64 s) 10 ∧ EndsInFault s (exec .gt64 s) 10 ∧ EndsInFault s (exec .gte64 s) 10) ∧
    (s.A.toNat < 2 ^ 128 → s.B.toNat < 2 ^ 128 →
      EndsWithValue s (exec .lte128 s) (if s.A.toNat ≤ s.B.toNat then 1 else 0) 0 ∧
      EndsWithValue s (exec .gt128 s) (if s.A.toNat > s.B.toNat then 1 else 0) 0 ∧
      EndsWithValue s (exec .gte128 s) (if s.A.toNat ≥ s.B.toNat then 1 else 0) 0) ∧
    (2 ^ 128 ≤ s.A.toNat ∨ 2 ^ 128 ≤ s.B.toNat →
      EndsInFault s (exec .lte128 s) 10 ∧ EndsInFault s (exec .gt128 s) 10 ∧ EndsInFault s (exec .gte128 s) 10) ∧
    EndsWithValue s (exec .lte256 s) (if s.A.toNat ≤ s.B.toNat then 1 else 0) 0 ∧
    EndsWithValue s (exec .gt256 s) (if s.A.toNat > s.B.toNat then 1 else 0) 0 ∧
    EndsWithValue s (exec .gte256 s) (if s.A.toNat ≥ s.B.toNat then 1 else 0) 0

/-- R156 to R161: `MIN` and `MAX` at the three widths. -/
def Obligations.MinAndMaxChooseTheInteger : Prop :=
  encode .min64 = 0x35 ∧ encode .min128 = 0x75 ∧ encode .min256 = 0xB5 ∧
  encode .max64 = 0x36 ∧ encode .max128 = 0x76 ∧ encode .max256 = 0xB6 ∧
  ∀ s : State,
    (s.A.toNat < 2 ^ 64 → s.B.toNat < 2 ^ 64 →
      EndsWithValue s (exec .min64 s) (if s.B.toNat < s.A.toNat then s.B.toNat else s.A.toNat) 0 ∧
      EndsWithValue s (exec .max64 s) (if s.A.toNat < s.B.toNat then s.B.toNat else s.A.toNat) 0) ∧
    (2 ^ 64 ≤ s.A.toNat ∨ 2 ^ 64 ≤ s.B.toNat →
      EndsInFault s (exec .min64 s) 10 ∧ EndsInFault s (exec .max64 s) 10) ∧
    (s.A.toNat < 2 ^ 128 → s.B.toNat < 2 ^ 128 →
      EndsWithValue s (exec .min128 s) (if s.B.toNat < s.A.toNat then s.B.toNat else s.A.toNat) 0 ∧
      EndsWithValue s (exec .max128 s) (if s.A.toNat < s.B.toNat then s.B.toNat else s.A.toNat) 0) ∧
    (2 ^ 128 ≤ s.A.toNat ∨ 2 ^ 128 ≤ s.B.toNat →
      EndsInFault s (exec .min128 s) 10 ∧ EndsInFault s (exec .max128 s) 10) ∧
    EndsWithValue s (exec .min256 s) (if s.B.toNat < s.A.toNat then s.B.toNat else s.A.toNat) 0 ∧
    EndsWithValue s (exec .max256 s) (if s.A.toNat < s.B.toNat then s.B.toNat else s.A.toNat) 0

/-- R170, R171: `ZERO` at its two widths, in every state, whatever the operands hold. -/
def Obligations.ZeroIgnoresItsOperands : Prop :=
  encode .zero128 = 0x78 ∧ encode .zero256 = 0xB8 ∧
  ∀ s : State, EndsWithValue s (exec .zero128 s) 0 0 ∧ EndsWithValue s (exec .zero256 s) 0 0

/-- `MODULUS` at its two widths, in every state, whatever the operands hold. The values `2^64` and `2^128` are the
spec's own reading of an open sentence of its source (D27; notes/assumptions/12.md). -/
def Obligations.ModulusIsThatOfTheNarrowerWidth : Prop :=
  encode .modulus128 = 0x79 ∧ encode .modulus256 = 0xB9 ∧
  ∀ s : State,
    EndsWithValue s (exec .modulus128 s) (2 ^ 64) 0 ∧ EndsWithValue s (exec .modulus256 s) (2 ^ 128) 0

/-! ### Division and square root -/

/-- R105: the `call` half of the division commands. A zero divisor is rejected with no query, whatever the dividend;
any other divisor is queried, with the request's signals as stated; the operand check comes first. -/
def Obligations.DivisionCallRejectsOrQueries : Prop :=
  ∀ i ∈ [Instr.div64, .div128, .div256, .rem64, .rem128, .rem256, .divrem64, .divrem128, .divrem256,
         .ismul64, .ismul128, .ismul256],
  ∀ (s : State) (a b : Bus) (rest : List PortEvent),
    s.stage ≠ .query → s.inputs = .call (encode i) a b :: rest →
    (a.toNat < 2 ^ i.width.bits → b.toNat < 2 ^ i.width.bits → b.toNat ≠ 0 →
      Waits (accepted s (encode i) a b rest) (step s) ∧
      ∀ t, step s = .next t → t.WREQ = true ∧
        t.witnessRequest = some { WKIND := 0, WW := BitVec.ofNat 2 i.width.code, WA := a, WB := b }) ∧
    (a.toNat < 2 ^ i.width.bits → b.toNat = 0 → EndsInFault (accepted s (encode i) a b rest) (step s) 3) ∧
    (2 ^ i.width.bits ≤ a.toNat ∨ 2 ^ i.width.bits ≤ b.toNat →
      EndsInFault (accepted s (encode i) a b rest) (step s) 10)

/-- R106 to R108: the `answer` half of the division commands, for every two 256-bit values: the remainder's bound,
then the reconstruction, over unbounded integers; then each command's own result. -/
def Obligations.DivisionAnswerIsVerified : Prop :=
  ∀ (s : State) (wq wr : Bus) (rest : List PortEvent),
    s.stage = .query → s.inputs = .answer wq wr :: rest →
    (wr.toNat < s.B.toNat → wq.toNat * s.B.toNat + wr.toNat = s.A.toNat →
      (∀ i ∈ [Instr.div64, .div128, .div256],
        EndsWithValue { s with inputs := rest } (exec i s) wq.toNat 0) ∧
      (∀ i ∈ [Instr.rem64, .rem128, .rem256],
        EndsWithValue { s with inputs := rest } (exec i s) wr.toNat 0) ∧
      (∀ i ∈ [Instr.divrem64, .divrem128, .divrem256],
        EndsWithValue { s with inputs := rest } (exec i s) wq.toNat wr.toNat) ∧
      (∀ i ∈ [Instr.ismul64, .ismul128, .ismul256],
        EndsWithValue { s with inputs := rest } (exec i s) (if wr.toNat = 0 then 1 else 0) 0)) ∧
    (∀ i ∈ [Instr.div64, .div128, .div256, .rem64, .rem128, .rem256, .divrem64, .divrem128, .divrem256,
            .ismul64, .ismul128, .ismul256],
      (wr.toNat ≥ s.B.toNat → EndsInFault { s with inputs := rest } (exec i s) 4) ∧
      (wr.toNat < s.B.toNat → wq.toNat * s.B.toNat + wr.toNat ≠ s.A.toNat →
        EndsInFault { s with inputs := rest } (exec i s) 5))

/-- R125: the `call` half of the square root queries for every radicand of the width, zero and one included, and
does not look at `b`. -/
def Obligations.SquareRootCallAlwaysQueries : Prop :=
  ∀ i ∈ [Instr.sqrt64, .sqrt128, .sqrt256],
  ∀ (s : State) (a b : Bus) (rest : List PortEvent),
    s.stage ≠ .query → s.inputs = .call (encode i) a b :: rest →
    (a.toNat < 2 ^ i.width.bits →
      Waits (accepted s (encode i) a b rest) (step s) ∧
      ∀ t, step s = .next t → t.WREQ = true ∧
        t.witnessRequest = some { WKIND := 1, WW := BitVec.ofNat 2 i.width.code, WA := a, WB := 0 }) ∧
    (2 ^ i.width.bits ≤ a.toNat → EndsInFault (accepted s (encode i) a b rest) (step s) 10)

/-- R126 to R128: the `answer` half of the square root, for every two 256-bit values: not too high, then not too
low, over unbounded integers, with equality `(r + 1)^2 = n` an underestimate; `wr` is ignored. -/
def Obligations.SquareRootAnswerIsVerified : Prop :=
  ∀ i ∈ [Instr.sqrt64, .sqrt128, .sqrt256],
  ∀ (s : State) (wq wr : Bus) (rest : List PortEvent),
    s.stage = .query → s.inputs = .answer wq wr :: rest →
    (wq.toNat * wq.toNat ≤ s.A.toNat → (wq.toNat + 1) * (wq.toNat + 1) > s.A.toNat →
      EndsWithValue { s with inputs := rest } (exec i s) wq.toNat 0) ∧
    (wq.toNat * wq.toNat > s.A.toNat → EndsInFault { s with inputs := rest } (exec i s) 6) ∧
    ((wq.toNat + 1) * (wq.toNat + 1) ≤ s.A.toNat → EndsInFault { s with inputs := rest } (exec i s) 7)

/-! ### Headline results -/

/-- R7, for every legal command: its `call` step ends as unbounded integer arithmetic says, with the exact value,
the named fault, or the query. The values of `MODULUS` in `exactCall` are the spec's own reading
(notes/assumptions/12.md), and the limit of `EXPORT` is the state's parameter, read as a count of bits
(notes/assumptions/3.md). -/
def Obligations.EveryCallAgreesWithIntegerArithmetic : Prop :=
  ∀ (s : State) (cmd : Byte) (a b : Bus) (rest : List PortEvent) (i : Instr),
    s.stage ≠ .query → s.inputs = .call cmd a b :: rest → decode cmd = .ok i →
    EndsAs (accepted s cmd a b rest) (step s)
      (exactCall s.cfg.exportBits i.width.bits a.toNat b.toNat i.op)

/-- R7, for every witness-verified command: its `answer` step ends as unbounded integer arithmetic says, for every
two 256-bit values of the answer. That a product or sum beyond the width ends a division in code 5 is the spec's
decision (notes/assumptions/14.md). -/
def Obligations.EveryAnswerAgreesWithIntegerArithmetic : Prop :=
  ∀ (s : State) (wq wr : Bus) (rest : List PortEvent) (i : Instr),
    s.stage = .query → s.inputs = .answer wq wr :: rest → decode s.CMD = .ok i → i.op.queriesWitness = true →
    EndsAs { s with inputs := rest } (step s)
      (exactAnswer s.A.toNat s.B.toNat wq.toNat wr.toNat i.op)

/-- R119: a division call with operands of the width and a divisor that is not zero, answered by any oracle at all,
ends in two steps in the true quotient and remainder, `RemainderOutOfRange` or `DivisionInvalid`; and it ends in a
value exactly for the honest answer. -/
def Obligations.DivisionOutcomeIsTrueOrAFault : Prop :=
  ∀ i ∈ [Instr.div64, .div128, .div256, .rem64, .rem128, .rem256, .divrem64, .divrem128, .divrem256,
         .ismul64, .ismul128, .ismul256],
  ∀ (s : State) (a b wq wr : Bus) (rest : List PortEvent),
    s.stage ≠ .query → s.inputs = .call (encode i) a b :: .answer wq wr :: rest →
    a.toNat < 2 ^ i.width.bits → b.toNat < 2 ^ i.width.bits → b.toNat ≠ 0 →
    ∃ t, Host.Core.run Sys2Proof.core 2 s = .next t ∧ t.stage = .done ∧ t.inputs = rest ∧
      (t.CODE = 0 ∨ t.CODE = 4 ∨ t.CODE = 5) ∧
      (t.CODE = 0 ↔ (wq, wr) = honestDivision a b) ∧
      (t.CODE = 0 →
        (i.op = .div → t.RES0.toNat = a.toNat / b.toNat ∧ t.RES1 = 0) ∧
        (i.op = .rem → t.RES0.toNat = a.toNat % b.toNat ∧ t.RES1 = 0) ∧
        (i.op = .divrem → t.RES0.toNat = a.toNat / b.toNat ∧ t.RES1.toNat = a.toNat % b.toNat) ∧
        (i.op = .ismul → (t.RES0 = 1 ↔ b.toNat ∣ a.toNat) ∧ (t.RES0 = 0 ↔ ¬ b.toNat ∣ a.toNat) ∧ t.RES1 = 0))

/-- R133: a square-root call with a radicand of the width, answered by any oracle at all, ends in two steps in the
floor of the square root, `SqrtOverestimate` or `SqrtUnderestimate`; it accepts the honest answer alone, and names
every candidate above or below it as what it is. -/
def Obligations.SquareRootOutcomeIsTheFloorOrAFault : Prop :=
  ∀ i ∈ [Instr.sqrt64, .sqrt128, .sqrt256],
  ∀ (s : State) (a b wq wr : Bus) (rest : List PortEvent),
    s.stage ≠ .query → s.inputs = .call (encode i) a b :: .answer wq wr :: rest →
    a.toNat < 2 ^ i.width.bits →
    ∃ t, Host.Core.run Sys2Proof.core 2 s = .next t ∧ t.stage = .done ∧ t.inputs = rest ∧
      (t.CODE = 0 ↔ wq = honestRoot a) ∧
      (t.CODE = 6 ↔ Nat.sqrt a.toNat < wq.toNat) ∧ (t.CODE = 7 ↔ wq.toNat < Nat.sqrt a.toNat) ∧
      (t.CODE = 0 → t.RES0.toNat = Nat.sqrt a.toNat ∧ t.RES0.toNat < 2 ^ i.width.halfBits ∧ t.RES1 = 0)

/-- R217: an answer meant for another query, late or malicious, can cause a fault but no wrong value: whatever
query is outstanding, a call that ends without a fault ends with what the honest answer to that very query
gives. -/
def Obligations.StaleAnswersNeverGiveAWrongValue : Prop :=
  ∀ (s t : State) (wq wr : Bus) (rest : List PortEvent) (i : Instr),
    s.stage = .query → s.inputs = .answer wq wr :: rest → decode s.CMD = .ok i →
    step s = .next t → t.CODE = 0 →
    (i.op.dividesByWitness = true →
      step { s with inputs := .answer (honestDivision s.A s.B).1 (honestDivision s.A s.B).2 :: rest } = .next t) ∧
    (i.op = .sqrt → step { s with inputs := .answer (honestRoot s.A) 0 :: rest } = .next t)

/-! ### Laws -/

/-- R82: at every width, checked addition is commutative in value and fault, and subtracting an addend from a sum
that did not overflow gives the other addend back. -/
def Obligations.AdditionCommutesAndSubtractionInverts : Prop :=
  ∀ p ∈ [(Instr.addc64, Instr.sub64), (.addc128, .sub128), (.addc256, .sub256)],
  ∀ (s t u : State),
    (exec p.1 s = .next t → exec p.1 { s with A := s.B, B := s.A } = .next u →
      u.CODE = t.CODE ∧ (t.CODE = 0 → u.RES0 = t.RES0 ∧ u.RES1 = t.RES1)) ∧
    (exec p.1 s = .next t → t.CODE = 0 →
      EndsWithValue { t with A := t.RES0 } (exec p.2 { t with A := t.RES0 }) s.A.toNat 0)

/-- R98: a checked product that did not overflow, divided by a factor that is not zero, with an honest witness,
gives the other factor back. -/
def Obligations.DivisionInvertsMultiplication : Prop :=
  ∀ p ∈ [(Instr.mulc64, Instr.div64), (.mulc128, .div128), (.mulc256, .div256)],
  ∀ (s t : State) (rest : List PortEvent),
    exec p.1 s = .next t → t.CODE = 0 → t.stage = .done → s.B.toNat ≠ 0 →
    ∃ u, Host.Core.run Sys2Proof.core 2
        { t with inputs := .call (encode p.2) t.RES0 s.B ::
                           .answer (honestDivision t.RES0 s.B).1 (honestDivision t.RES0 s.B).2 :: rest } = .next u ∧
      u.CODE = 0 ∧ u.RES0 = s.A

/-- R165: on operands of one width, exactly one of `LT`, `EQ`, `GT` is 1, `LTE` and `GTE` are the complements of
`GT` and `LT`, `MIN` and `MAX` choose the operands that these name, and they add up to the operands. -/
def Obligations.ComparisonsOrderTheOperandsTotally : Prop :=
  ∀ w : Width, ∀ s : State, s.A.toNat < 2 ^ w.bits → s.B.toNat < 2 ^ w.bits →
    ∀ ilt ieq igt ilte igte imin imax : Instr,
      instrOf .lt w = some ilt → instrOf .eq w = some ieq → instrOf .gt w = some igt →
      instrOf .lte w = some ilte → instrOf .gte w = some igte →
      instrOf .min w = some imin → instrOf .max w = some imax →
    ∃ lt eq gt lte gte min max : State,
      exec ilt s = .next lt ∧ exec ieq s = .next eq ∧ exec igt s = .next gt ∧
      exec ilte s = .next lte ∧ exec igte s = .next gte ∧ exec imin s = .next min ∧ exec imax s = .next max ∧
      lt.RES0.toNat + eq.RES0.toNat + gt.RES0.toNat = 1 ∧
      lte.RES0.toNat + gt.RES0.toNat = 1 ∧ gte.RES0.toNat + lt.RES0.toNat = 1 ∧
      (lt.RES0 = 1 → min.RES0 = s.A ∧ max.RES0 = s.B) ∧
      (eq.RES0 = 1 → min.RES0 = s.A ∧ min.RES0 = s.B ∧ max.RES0 = s.A ∧ max.RES0 = s.B) ∧
      (gt.RES0 = 1 → min.RES0 = s.B ∧ max.RES0 = s.A) ∧
      min.RES0.toNat + max.RES0.toNat = s.A.toNat + s.B.toNat ∧ min.RES0.toNat ≤ max.RES0.toNat
end

