-- ==== Sys2Proof/Laws/Datapath.lean ====
section
/-! SUPPORT. The small lemmas of limbs and chains, from which the exactness of the datapath is assembled: a limb as
a digit in base `2^64`, the value of a list of limbs, and the lengths the chains keep. -/

namespace Sys2Proof.Machine

/-- Limb `i` is the digit of weight `2^(64 i)` (R60). -/
theorem limb_toNat {w : Nat} (v : BitVec w) (i : Nat) : (limb v i).toNat = v.toNat / 2 ^ (64 * i) % 2 ^ 64 := by
  simp [limb, BitVec.extractLsb'_toNat, Nat.shiftRight_eq_div_pow]

@[simp] theorem toWide_length {w : Nat} (n : Nat) (v : BitVec w) : (toWide n v).length = n := by simp [toWide]

@[simp] theorem toWide_zero {w : Nat} (v : BitVec w) : toWide 0 v = [] := rfl

/-- "Most-significant limb last" (R60). -/
theorem toWide_succ {w : Nat} (n : Nat) (v : BitVec w) : toWide (n + 1) v = toWide n v ++ [limb v n] := by
  simp [toWide, List.range_succ]

@[simp] theorem limbsValue_nil : limbsValue [] = 0 := rfl

@[simp] theorem limbsValue_cons (l : Limb) (ls : List Limb) :
    limbsValue (l :: ls) = l.toNat + 2 ^ 64 * limbsValue ls := rfl

/-- The limbs above the first `xs` weigh `2^(64 * length)` more. -/
theorem limbsValue_append (xs ys : List Limb) :
    limbsValue (xs ++ ys) = limbsValue xs + 2 ^ (64 * xs.length) * limbsValue ys := by
  induction xs with
  | nil => simp
  | cons x xs ih =>
    have e : 2 ^ (64 * (xs.length + 1)) = 2 ^ 64 * 2 ^ (64 * xs.length) := by rw [← pow_add]; congr 1; ring
    simp only [List.cons_append, limbsValue_cons, ih, List.length_cons, e]
    ring

/-- `n` limbs denote an integer below `2^(64 n)`. -/
theorem limbsValue_lt (ls : List Limb) : limbsValue ls < 2 ^ (64 * ls.length) := by
  induction ls with
  | nil => simp
  | cons l ls ih =>
    have e : 2 ^ (64 * (ls.length + 1)) = 2 ^ 64 * 2 ^ (64 * ls.length) := by rw [← pow_add]; congr 1; ring
    have := l.isLt
    simp only [limbsValue_cons, List.length_cons, e]
    omega

/-- The carry chain gives one sum limb for each pair of limbs. -/
theorem carryChain_length (xs ys : List Limb) (c : BitVec 1) :
    (carryChain xs ys c).1.length = min xs.length ys.length := by
  induction xs generalizing ys c with
  | nil => cases ys <;> simp [carryChain]
  | cons x xs ih =>
    cases ys with
    | nil => simp [carryChain]
    | cons y ys => simp [carryChain, ih]

/-- The borrow chain gives one difference limb for each pair of limbs. -/
theorem borrowChain_length (xs ys : List Limb) (b : BitVec 1) :
    (borrowChain xs ys b).1.length = min xs.length ys.length := by
  induction xs generalizing ys b with
  | nil => cases ys <;> simp [borrowChain]
  | cons x xs ih =>
    cases ys with
    | nil => simp [borrowChain]
    | cons y ys => simp [borrowChain, ih]

end Sys2Proof.Machine
end

