-- ==== Sys2Proof/Laws/State.lean ====
section
/-! SUPPORT. One lemma per field per update of the state: what each named update writes, and that it leaves every
other field alone. All hold by definition. -/

namespace Sys2Proof.Machine

/-! ### `done` -/

@[simp] theorem State.done_stage (s : State) (r0 r1 : Bus) : (s.done r0 r1).stage = .done := rfl
@[simp] theorem State.done_CMD (s : State) (r0 r1 : Bus) : (s.done r0 r1).CMD = s.CMD := rfl
@[simp] theorem State.done_A (s : State) (r0 r1 : Bus) : (s.done r0 r1).A = s.A := rfl
@[simp] theorem State.done_B (s : State) (r0 r1 : Bus) : (s.done r0 r1).B = s.B := rfl
@[simp] theorem State.done_RES0 (s : State) (r0 r1 : Bus) : (s.done r0 r1).RES0 = r0 := rfl
@[simp] theorem State.done_RES1 (s : State) (r0 r1 : Bus) : (s.done r0 r1).RES1 = r1 := rfl
@[simp] theorem State.done_CODE (s : State) (r0 r1 : Bus) : (s.done r0 r1).CODE = 0 := rfl
@[simp] theorem State.done_cfg (s : State) (r0 r1 : Bus) : (s.done r0 r1).cfg = s.cfg := rfl
@[simp] theorem State.done_inputs (s : State) (r0 r1 : Bus) : (s.done r0 r1).inputs = s.inputs := rfl

/-! ### `raise` -/

@[simp] theorem State.raise_stage (s : State) (k : FaultKind) : (s.raise k).stage = .done := rfl
@[simp] theorem State.raise_CMD (s : State) (k : FaultKind) : (s.raise k).CMD = s.CMD := rfl
@[simp] theorem State.raise_A (s : State) (k : FaultKind) : (s.raise k).A = s.A := rfl
@[simp] theorem State.raise_B (s : State) (k : FaultKind) : (s.raise k).B = s.B := rfl
@[simp] theorem State.raise_RES0 (s : State) (k : FaultKind) : (s.raise k).RES0 = 0 := rfl
@[simp] theorem State.raise_RES1 (s : State) (k : FaultKind) : (s.raise k).RES1 = 0 := rfl
@[simp] theorem State.raise_CODE (s : State) (k : FaultKind) : (s.raise k).CODE = k.code := rfl
@[simp] theorem State.raise_cfg (s : State) (k : FaultKind) : (s.raise k).cfg = s.cfg := rfl
@[simp] theorem State.raise_inputs (s : State) (k : FaultKind) : (s.raise k).inputs = s.inputs := rfl

/-! ### `query` -/

@[simp] theorem State.query_stage (s : State) : s.query.stage = .query := rfl
@[simp] theorem State.query_CMD (s : State) : s.query.CMD = s.CMD := rfl
@[simp] theorem State.query_A (s : State) : s.query.A = s.A := rfl
@[simp] theorem State.query_B (s : State) : s.query.B = s.B := rfl
@[simp] theorem State.query_RES0 (s : State) : s.query.RES0 = s.RES0 := rfl
@[simp] theorem State.query_RES1 (s : State) : s.query.RES1 = s.RES1 := rfl
@[simp] theorem State.query_CODE (s : State) : s.query.CODE = s.CODE := rfl
@[simp] theorem State.query_cfg (s : State) : s.query.cfg = s.cfg := rfl
@[simp] theorem State.query_inputs (s : State) : s.query.inputs = s.inputs := rfl

/-! ### `latch` -/

@[simp] theorem State.latch_stage (s : State) (cmd : Byte) (a b : Bus) : (s.latch cmd a b).stage = s.stage := rfl
@[simp] theorem State.latch_CMD (s : State) (cmd : Byte) (a b : Bus) : (s.latch cmd a b).CMD = cmd := rfl
@[simp] theorem State.latch_A (s : State) (cmd : Byte) (a b : Bus) : (s.latch cmd a b).A = a := rfl
@[simp] theorem State.latch_B (s : State) (cmd : Byte) (a b : Bus) : (s.latch cmd a b).B = b := rfl
@[simp] theorem State.latch_RES0 (s : State) (cmd : Byte) (a b : Bus) : (s.latch cmd a b).RES0 = s.RES0 := rfl
@[simp] theorem State.latch_RES1 (s : State) (cmd : Byte) (a b : Bus) : (s.latch cmd a b).RES1 = s.RES1 := rfl
@[simp] theorem State.latch_CODE (s : State) (cmd : Byte) (a b : Bus) : (s.latch cmd a b).CODE = s.CODE := rfl
@[simp] theorem State.latch_cfg (s : State) (cmd : Byte) (a b : Bus) : (s.latch cmd a b).cfg = s.cfg := rfl
@[simp] theorem State.latch_inputs (s : State) (cmd : Byte) (a b : Bus) : (s.latch cmd a b).inputs = s.inputs := rfl

/-! ### `passEvent` -/

@[simp] theorem State.passEvent_stage (s : State) : s.passEvent.stage = s.stage := rfl
@[simp] theorem State.passEvent_CMD (s : State) : s.passEvent.CMD = s.CMD := rfl
@[simp] theorem State.passEvent_A (s : State) : s.passEvent.A = s.A := rfl
@[simp] theorem State.passEvent_B (s : State) : s.passEvent.B = s.B := rfl
@[simp] theorem State.passEvent_RES0 (s : State) : s.passEvent.RES0 = s.RES0 := rfl
@[simp] theorem State.passEvent_RES1 (s : State) : s.passEvent.RES1 = s.RES1 := rfl
@[simp] theorem State.passEvent_CODE (s : State) : s.passEvent.CODE = s.CODE := rfl
@[simp] theorem State.passEvent_cfg (s : State) : s.passEvent.cfg = s.cfg := rfl
@[simp] theorem State.passEvent_inputs (s : State) : s.passEvent.inputs = s.inputs.tail := rfl

/-! ### `resetRegisters` -/

@[simp] theorem State.resetRegisters_stage (s : State) : s.resetRegisters.stage = .idle := rfl
@[simp] theorem State.resetRegisters_CMD (s : State) : s.resetRegisters.CMD = 0 := rfl
@[simp] theorem State.resetRegisters_A (s : State) : s.resetRegisters.A = 0 := rfl
@[simp] theorem State.resetRegisters_B (s : State) : s.resetRegisters.B = 0 := rfl
@[simp] theorem State.resetRegisters_RES0 (s : State) : s.resetRegisters.RES0 = 0 := rfl
@[simp] theorem State.resetRegisters_RES1 (s : State) : s.resetRegisters.RES1 = 0 := rfl
@[simp] theorem State.resetRegisters_CODE (s : State) : s.resetRegisters.CODE = 0 := rfl
@[simp] theorem State.resetRegisters_cfg (s : State) : s.resetRegisters.cfg = s.cfg := rfl
@[simp] theorem State.resetRegisters_inputs (s : State) : s.resetRegisters.inputs = s.inputs := rfl

/-! ### `presentCall` -/

@[simp] theorem State.presentCall_stage (s : State) (cmd : Byte) : (s.presentCall cmd).stage = if s.stage = .query then .done else s.stage := rfl
@[simp] theorem State.presentCall_CMD (s : State) (cmd : Byte) : (s.presentCall cmd).CMD = s.CMD := rfl
@[simp] theorem State.presentCall_A (s : State) (cmd : Byte) : (s.presentCall cmd).A = s.A := rfl
@[simp] theorem State.presentCall_B (s : State) (cmd : Byte) : (s.presentCall cmd).B = s.B := rfl
@[simp] theorem State.presentCall_RES0 (s : State) (cmd : Byte) : (s.presentCall cmd).RES0 = s.RES0 := rfl
@[simp] theorem State.presentCall_RES1 (s : State) (cmd : Byte) : (s.presentCall cmd).RES1 = s.RES1 := rfl
@[simp] theorem State.presentCall_CODE (s : State) (cmd : Byte) : (s.presentCall cmd).CODE = s.CODE := rfl
@[simp] theorem State.presentCall_cfg (s : State) (cmd : Byte) : (s.presentCall cmd).cfg = s.cfg := rfl
@[simp] theorem State.presentCall_inputs (s : State) (cmd : Byte) : (s.presentCall cmd).inputs = .call cmd s.A s.B :: s.inputs := rfl

/-! ### Fault codes -/

/-- No fault kind has the code 0 of a value (R181). -/
@[simp] theorem FaultKind.code_ne_zero (k : FaultKind) : k.code ≠ 0 := by cases k <;> decide

/-- A fault kind's code is at most 10 (R181). -/
theorem FaultKind.code_le (k : FaultKind) : k.code.toNat ≤ 10 := by cases k <;> decide

/-- Distinct fault kinds have distinct codes (R181). -/
theorem FaultKind.code_injective (k l : FaultKind) (h : k.code = l.code) : k = l := by
  cases k <;> cases l <;> first | rfl | exact absurd h (by decide)

end Sys2Proof.Machine
end

