-- ==== Sys2Proof/Laws/Ops.lean ====
section
/-! SUPPORT. For each shared operation, once, everything it can do: if it answers a next state, then one of the
cases named holds. A proof about a command cites these and unfolds none of the operations again. -/

namespace Sys2Proof.Machine

/-! ### Operands -/

/-- The range check as a bound on the integer (R51). -/
theorem fits_iff (v : Bus) (k : Nat) : fits v k = true ↔ v.toNat < 2 ^ k := by simp [fits]

/-- `fits(v, k)` is `v[255:k] == 0` (R51). -/
theorem fits_iff_upper_bits_zero (v : Bus) (k : Nat) : fits v k = true ↔ v >>> k = 0 := by
  rw [fits_iff, ← BitVec.toNat_inj]
  simp [Nat.shiftRight_eq_div_pow, Nat.div_eq_zero_iff]

/-- Every bus fits 256 bits, so `OperandRange` cannot occur at width 256 (R51, R192). -/
theorem fits_256 (v : Bus) : fits v Width.w256.bits = true := (fits_iff v _).2 v.isLt

/-- A value that fits keeps its integer when it is read at the command's width. -/
theorem setWidth_toNat_of_lt {v : Bus} {w : Nat} (h : v.toNat < 2 ^ w) : (v.setWidth w).toNat = v.toNat := by
  simp [Nat.mod_eq_of_lt h]

theorem withOperandA_of_lt {w : Width} {s : State} {k : BitVec w.bits → Out} (h : s.A.toNat < 2 ^ w.bits) :
    withOperandA w s k = k (s.A.setWidth w.bits) := by
  simp [withOperandA, (fits_iff _ _).2 h]

theorem withOperandA_of_ge {w : Width} {s : State} {k : BitVec w.bits → Out} (h : 2 ^ w.bits ≤ s.A.toNat) :
    withOperandA w s k = .next (s.raise .operandRange) := by
  simp [withOperandA, fits, Nat.not_lt.2 h]

theorem withOperandA_next {w : Width} {s t : State} {k : BitVec w.bits → Out}
    (h : withOperandA w s k = .next t) :
    (s.A.toNat < 2 ^ w.bits ∧ k (s.A.setWidth w.bits) = .next t) ∨
      (2 ^ w.bits ≤ s.A.toNat ∧ t = s.raise .operandRange) := by
  by_cases hA : s.A.toNat < 2 ^ w.bits
  · exact .inl ⟨hA, by rwa [withOperandA_of_lt hA] at h⟩
  · rw [withOperandA_of_ge (Nat.not_lt.1 hA)] at h
    cases h
    exact .inr ⟨Nat.not_lt.1 hA, rfl⟩

theorem withOperands_of_lt {w : Width} {s : State} {k : BitVec w.bits → BitVec w.bits → Out}
    (hA : s.A.toNat < 2 ^ w.bits) (hB : s.B.toNat < 2 ^ w.bits) :
    withOperands w s k = k (s.A.setWidth w.bits) (s.B.setWidth w.bits) := by
  simp [withOperands, (fits_iff _ _).2 hA, (fits_iff _ _).2 hB]

theorem withOperands_of_ge {w : Width} {s : State} {k : BitVec w.bits → BitVec w.bits → Out}
    (h : 2 ^ w.bits ≤ s.A.toNat ∨ 2 ^ w.bits ≤ s.B.toNat) :
    withOperands w s k = .next (s.raise .operandRange) := by
  rcases h with h | h <;> simp [withOperands, fits, Nat.not_lt.2 h]

theorem withOperands_next {w : Width} {s t : State} {k : BitVec w.bits → BitVec w.bits → Out}
    (h : withOperands w s k = .next t) :
    (s.A.toNat < 2 ^ w.bits ∧ s.B.toNat < 2 ^ w.bits ∧
        k (s.A.setWidth w.bits) (s.B.setWidth w.bits) = .next t) ∨
      ((2 ^ w.bits ≤ s.A.toNat ∨ 2 ^ w.bits ≤ s.B.toNat) ∧ t = s.raise .operandRange) := by
  by_cases hr : s.A.toNat < 2 ^ w.bits ∧ s.B.toNat < 2 ^ w.bits
  · exact .inl ⟨hr.1, hr.2, by rwa [withOperands_of_lt hr.1 hr.2] at h⟩
  · have hr' : 2 ^ w.bits ≤ s.A.toNat ∨ 2 ^ w.bits ≤ s.B.toNat := by omega
    rw [withOperands_of_ge hr'] at h
    cases h
    exact .inr ⟨hr', rfl⟩

/-! ### Families -/

theorem convertTo_next {w : Width} {k : Nat} {s t : State} (h : convertTo w k s = .next t) :
    (s.A.toNat < 2 ^ w.bits ∧ s.A.toNat < 2 ^ k ∧ t = s.done ((s.A.setWidth w.bits).setWidth 256) 0) ∨
      (s.A.toNat < 2 ^ w.bits ∧ 2 ^ k ≤ s.A.toNat ∧ t = s.raise .rangeExceeded) ∨
      (2 ^ w.bits ≤ s.A.toNat ∧ t = s.raise .operandRange) := by
  rcases withOperandA_next h with ⟨hA, h⟩ | h
  · have e : ((s.A.setWidth w.bits).setWidth 256).toNat = s.A.toNat := by
      simp [Nat.mod_eq_of_lt hA, Nat.mod_eq_of_lt s.A.isLt]
    simp only [fits, decide_eq_true_eq, e] at h
    split at h <;> cases h <;> simp_all
  · exact .inr (.inr h)

theorem addWidening_next {w : Width} {s t : State} (h : addWidening w s = .next t) :
    (s.A.toNat < 2 ^ w.bits ∧ s.B.toNat < 2 ^ w.bits ∧
        t = s.done (((addN w.limbs (s.A.setWidth w.bits) (s.B.setWidth w.bits)).2 ++
          (addN w.limbs (s.A.setWidth w.bits) (s.B.setWidth w.bits)).1).setWidth 256) 0) ∨
      ((2 ^ w.bits ≤ s.A.toNat ∨ 2 ^ w.bits ≤ s.B.toNat) ∧ t = s.raise .operandRange) := by
  rcases withOperands_next h with ⟨hA, hB, h⟩ | h
  · cases h
    exact .inl ⟨hA, hB, rfl⟩
  · exact .inr h

theorem addChecked_next {w : Width} {s t : State} (h : addChecked w s = .next t) :
    (s.A.toNat < 2 ^ w.bits ∧ s.B.toNat < 2 ^ w.bits ∧
        ((addN w.limbs (s.A.setWidth w.bits) (s.B.setWidth w.bits)).2 = 1 ∧ t = s.raise .overflow ∨
          (addN w.limbs (s.A.setWidth w.bits) (s.B.setWidth w.bits)).2 ≠ 1 ∧
            t = s.done ((addN w.limbs (s.A.setWidth w.bits) (s.B.setWidth w.bits)).1.setWidth 256) 0)) ∨
      ((2 ^ w.bits ≤ s.A.toNat ∨ 2 ^ w.bits ≤ s.B.toNat) ∧ t = s.raise .operandRange) := by
  rcases withOperands_next h with ⟨hA, hB, h⟩ | h
  · refine .inl ⟨hA, hB, ?_⟩
    simp only at h
    split at h <;> cases h <;> simp_all
  · exact .inr h

theorem subChecked_next {w : Width} {s t : State} (h : subChecked w s = .next t) :
    (s.A.toNat < 2 ^ w.bits ∧ s.B.toNat < 2 ^ w.bits ∧
        ((subN w.limbs (s.A.setWidth w.bits) (s.B.setWidth w.bits)).2 = 1 ∧ t = s.raise .underflow ∨
          (subN w.limbs (s.A.setWidth w.bits) (s.B.setWidth w.bits)).2 ≠ 1 ∧
            t = s.done ((subN w.limbs (s.A.setWidth w.bits) (s.B.setWidth w.bits)).1.setWidth 256) 0)) ∨
      ((2 ^ w.bits ≤ s.A.toNat ∨ 2 ^ w.bits ≤ s.B.toNat) ∧ t = s.raise .operandRange) := by
  rcases withOperands_next h with ⟨hA, hB, h⟩ | h
  · refine .inl ⟨hA, hB, ?_⟩
    simp only at h
    split at h <;> cases h <;> simp_all
  · exact .inr h

theorem mulWidening_next {w : Width} {s t : State} (h : mulWidening w s = .next t) :
    (s.A.toNat < 2 ^ w.bits ∧ s.B.toNat < 2 ^ w.bits ∧
        t = s.done ((mulwide w (s.A.setWidth w.bits) (s.B.setWidth w.bits)).setWidth 256) 0) ∨
      ((2 ^ w.bits ≤ s.A.toNat ∨ 2 ^ w.bits ≤ s.B.toNat) ∧ t = s.raise .operandRange) := by
  rcases withOperands_next h with ⟨hA, hB, h⟩ | h
  · cases h
    exact .inl ⟨hA, hB, rfl⟩
  · exact .inr h

theorem mulChecked_next {w : Width} {s t : State} (h : mulChecked w s = .next t) :
    (s.A.toNat < 2 ^ w.bits ∧ s.B.toNat < 2 ^ w.bits ∧
        (mulwide w (s.A.setWidth w.bits) (s.B.setWidth w.bits) >>> w.bits = 0 ∧
            t = s.done (((mulwide w (s.A.setWidth w.bits) (s.B.setWidth w.bits)).setWidth w.bits).setWidth 256) 0 ∨
          mulwide w (s.A.setWidth w.bits) (s.B.setWidth w.bits) >>> w.bits ≠ 0 ∧ t = s.raise .overflow)) ∨
      ((2 ^ w.bits ≤ s.A.toNat ∨ 2 ^ w.bits ≤ s.B.toNat) ∧ t = s.raise .operandRange) := by
  rcases withOperands_next h with ⟨hA, hB, h⟩ | h
  · refine .inl ⟨hA, hB, ?_⟩
    simp only at h
    split at h <;> cases h <;> simp_all
  · exact .inr h

theorem compareBy_next {w : Width} {f : BitVec w.bits → BitVec w.bits → Bool} {s t : State}
    (h : compareBy w f s = .next t) :
    (s.A.toNat < 2 ^ w.bits ∧ s.B.toNat < 2 ^ w.bits ∧
        t = s.done (truth (f (s.A.setWidth w.bits) (s.B.setWidth w.bits))) 0) ∨
      ((2 ^ w.bits ≤ s.A.toNat ∨ 2 ^ w.bits ≤ s.B.toNat) ∧ t = s.raise .operandRange) := by
  rcases withOperands_next h with ⟨hA, hB, h⟩ | h
  · cases h
    exact .inl ⟨hA, hB, rfl⟩
  · exact .inr h

theorem chooseBy_next {w : Width} {f : BitVec w.bits → BitVec w.bits → Bool} {s t : State}
    (h : chooseBy w f s = .next t) :
    (s.A.toNat < 2 ^ w.bits ∧ s.B.toNat < 2 ^ w.bits ∧
        (f (s.A.setWidth w.bits) (s.B.setWidth w.bits) = true ∧ t = s.done s.B 0 ∨
          f (s.A.setWidth w.bits) (s.B.setWidth w.bits) = false ∧ t = s.done s.A 0)) ∨
      ((2 ^ w.bits ≤ s.A.toNat ∨ 2 ^ w.bits ≤ s.B.toNat) ∧ t = s.raise .operandRange) := by
  rcases withOperands_next h with ⟨hA, hB, h⟩ | h
  · have back : ∀ {v : Bus}, v.toNat < 2 ^ w.bits → (v.setWidth w.bits).setWidth 256 = v := fun {v} hv => by
      apply BitVec.eq_of_toNat_eq
      simp [Nat.mod_eq_of_lt hv, Nat.mod_eq_of_lt v.isLt]
    refine .inl ⟨hA, hB, ?_⟩
    cases hf : f (s.A.setWidth w.bits) (s.B.setWidth w.bits) <;>
      simp only [hf, Bool.false_eq_true, if_true, if_false, back hA, back hB] at h <;> cases h <;> simp
  · exact .inr h

/-! ### Witness-verified commands -/

theorem divStart_next {w : Width} {s t : State} (h : divStart w s = .next t) :
    (s.A.toNat < 2 ^ w.bits ∧ s.B.toNat < 2 ^ w.bits ∧
        (s.B.toNat = 0 ∧ t = s.raise .divisionByZero ∨ s.B.toNat ≠ 0 ∧ t = s.query)) ∨
      ((2 ^ w.bits ≤ s.A.toNat ∨ 2 ^ w.bits ≤ s.B.toNat) ∧ t = s.raise .operandRange) := by
  rcases withOperands_next h with ⟨hA, hB, h⟩ | h
  · refine .inl ⟨hA, hB, ?_⟩
    simp only [setWidth_toNat_of_lt hB] at h
    split at h <;> cases h <;> simp_all
  · exact .inr h

theorem divAnswer_next {f : Bus → Bus → Bus × Bus} {wq wr : Bus} {s t : State}
    (h : divAnswer f wq wr s = .next t) :
    (wr.toNat < s.B.toNat ∧ wq.toNat * s.B.toNat + wr.toNat = s.A.toNat ∧
        t = s.done (f wq wr).1 (f wq wr).2) ∨
      (wr.toNat < s.B.toNat ∧ wq.toNat * s.B.toNat + wr.toNat ≠ s.A.toNat ∧ t = s.raise .divisionInvalid) ∨
      (s.B.toNat ≤ wr.toNat ∧ t = s.raise .remainderOutOfRange) := by
  unfold divAnswer at h
  split at h
  · split at h <;> cases h <;> simp_all
  · cases h
    exact .inr (.inr ⟨Nat.not_lt.1 ‹_›, rfl⟩)

theorem sqrtStart_next {w : Width} {s t : State} (h : sqrtStart w s = .next t) :
    (s.A.toNat < 2 ^ w.bits ∧ t = s.query) ∨
      (2 ^ w.bits ≤ s.A.toNat ∧ t = s.raise .operandRange) := by
  rcases withOperandA_next h with ⟨hA, h⟩ | h
  · cases h
    exact .inl ⟨hA, rfl⟩
  · exact .inr h

theorem sqrtAnswer_next {wq wr : Bus} {s t : State} (h : sqrtAnswer wq wr s = .next t) :
    (wq.toNat * wq.toNat ≤ s.A.toNat ∧ s.A.toNat < (wq.toNat + 1) * (wq.toNat + 1) ∧ t = s.done wq 0) ∨
      (wq.toNat * wq.toNat ≤ s.A.toNat ∧ (wq.toNat + 1) * (wq.toNat + 1) ≤ s.A.toNat ∧
        t = s.raise .sqrtUnderestimate) ∨
      (s.A.toNat < wq.toNat * wq.toNat ∧ t = s.raise .sqrtOverestimate) := by
  unfold sqrtAnswer at h
  split at h
  · split at h
    · cases h
      exact .inl ⟨‹_›, ‹_›, rfl⟩
    · cases h
      exact .inr (.inl ⟨‹_›, Nat.not_lt.1 ‹_›, rfl⟩)
  · cases h
    exact .inr (.inr ⟨Nat.not_le.1 ‹_›, rfl⟩)

/-- The answer half of a witness-verified command runs on the presented pair. -/
theorem witnessed_query {s : State} {start : State → Out} {answer : Bus → Bus → State → Out} {wq wr : Bus}
    {rest : List PortEvent} (hq : s.stage = .query) (hi : s.inputs = .answer wq wr :: rest) :
    witnessed s start answer = answer wq wr s.passEvent := by
  simp [witnessed, hq, hi]

/-- The call half of a witness-verified command. -/
theorem witnessed_ready {s : State} {start : State → Out} {answer : Bus → Bus → State → Out}
    (hq : s.stage ≠ .query) : witnessed s start answer = start s := by
  unfold witnessed
  split
  · contradiction
  · rfl
  · rfl

theorem witnessed_next {s t : State} {start : State → Out} {answer : Bus → Bus → State → Out}
    (h : witnessed s start answer = .next t) :
    (s.stage ≠ .query ∧ start s = .next t) ∨
      (s.stage = .query ∧ (∃ wq wr rest, s.inputs = .answer wq wr :: rest ∧
        answer wq wr s.passEvent = .next t)) ∨
      (s.stage = .query ∧ (∀ wq wr rest, s.inputs ≠ .answer wq wr :: rest) ∧ t = s) := by
  by_cases hq : s.stage = .query
  · right
    unfold witnessed at h
    simp only [hq] at h
    split at h
    · exact .inl ⟨hq, _, _, _, ‹_›, h⟩
    · cases h
      exact .inr ⟨hq, fun wq wr rest => by simp_all, rfl⟩
  · exact .inl ⟨hq, by rwa [witnessed_ready hq] at h⟩

/-! ### Port events -/

theorem callStep_next {cmd : Byte} {a b : Bus} {s t : State} (h : callStep cmd a b s = .next t) :
    (s.stage = .query ∧ t = s.passEvent) ∨
      (s.stage ≠ .query ∧ ∃ i, decode cmd = .ok i ∧ exec i (s.passEvent.latch cmd a b) = .next t) ∨
      (s.stage ≠ .query ∧ ∃ r, decode cmd = .error r ∧
        t = (s.passEvent.latch cmd a b).raise .illegalCommand) := by
  unfold callStep at h
  simp only [State.READY, decide_eq_true_eq] at h
  split at h
  · split at h
    · exact .inr (.inl ⟨‹_›, _, ‹_›, h⟩)
    · cases h
      exact .inr (.inr ⟨‹_›, _, ‹_›, rfl⟩)
  · cases h
    exact .inl ⟨not_not.1 ‹_›, rfl⟩

theorem answerStep_next {s t : State} (h : answerStep s = .next t) :
    (s.stage ≠ .query ∧ t = s.passEvent) ∨
      (s.stage = .query ∧ ∃ i, decode s.CMD = .ok i ∧ i.op.queriesWitness = true ∧ exec i s = .next t) := by
  unfold answerStep at h
  simp only [State.WREQ, decide_eq_true_eq] at h
  split at h
  · split at h
    · split at h
      · exact .inr ⟨‹_›, _, ‹_›, ‹_›, h⟩
      · cases h
    · cases h
  · cases h
    exact .inl ⟨‹_›, rfl⟩

theorem portStep_next {s t : State} (h : portStep s = .next t) :
    (s.inputs = [] ∧ t = s) ∨
      (∃ cmd a b rest, s.inputs = .call cmd a b :: rest ∧ callStep cmd a b s = .next t) ∨
      (∃ wq wr rest, s.inputs = .answer wq wr :: rest ∧ answerStep s = .next t) ∨
      (∃ rest, s.inputs = .reset :: rest ∧ t = s.passEvent.resetRegisters) := by
  unfold portStep at h
  split at h
  · cases h
    exact .inl ⟨‹_›, rfl⟩
  · exact .inr (.inl ⟨_, _, _, _, ‹_›, h⟩)
  · exact .inr (.inr (.inl ⟨_, _, _, ‹_›, h⟩))
  · cases h
    exact .inr (.inr (.inr ⟨_, ‹_›, rfl⟩))

/-- `withFetchWord` presents exactly one call, at a port that accepts it. -/
theorem withFetchWord_presents (s : State) (nbits w : Nat) :
    (s.withFetchWord nbits w).READY = true ∧
      (s.withFetchWord nbits w).inputs = .call (BitVec.ofNat 8 (w % 2 ^ nbits)) s.A s.B :: s.inputs := by
  refine ⟨?_, rfl⟩
  simp only [State.withFetchWord, State.READY, State.presentCall_stage]
  split <;> simp_all

end Sys2Proof.Machine
end

