-- ==== Sys2Proof/Laws/PerInstr.lean ====
section
/-! SUPPORT. Facts about every command as syntax, one lemma per constructor: R49 has a byte for its operation at
its width, and the decoder's map has the command itself there. -/

namespace Sys2Proof.Laws.LegalForm

/-- The command is well formed, and its operation and width lead back to it in R49's map. -/
def Statement (i : Instr) : Prop := i.wellFormed = true ∧ instrOf i.op i.width = some i

theorem addw64 : Statement .addw64 := ⟨rfl, rfl⟩
theorem addc64 : Statement .addc64 := ⟨rfl, rfl⟩
theorem sub64 : Statement .sub64 := ⟨rfl, rfl⟩
theorem mulw64 : Statement .mulw64 := ⟨rfl, rfl⟩
theorem mulc64 : Statement .mulc64 := ⟨rfl, rfl⟩
theorem div64 : Statement .div64 := ⟨rfl, rfl⟩
theorem rem64 : Statement .rem64 := ⟨rfl, rfl⟩
theorem divrem64 : Statement .divrem64 := ⟨rfl, rfl⟩
theorem sqrt64 : Statement .sqrt64 := ⟨rfl, rfl⟩
theorem eq64 : Statement .eq64 := ⟨rfl, rfl⟩
theorem lt64 : Statement .lt64 := ⟨rfl, rfl⟩
theorem lte64 : Statement .lte64 := ⟨rfl, rfl⟩
theorem gt64 : Statement .gt64 := ⟨rfl, rfl⟩
theorem gte64 : Statement .gte64 := ⟨rfl, rfl⟩
theorem min64 : Statement .min64 := ⟨rfl, rfl⟩
theorem max64 : Statement .max64 := ⟨rfl, rfl⟩
theorem ismul64 : Statement .ismul64 := ⟨rfl, rfl⟩
theorem narrow128 : Statement .narrow128 := ⟨rfl, rfl⟩
theorem addw128 : Statement .addw128 := ⟨rfl, rfl⟩
theorem addc128 : Statement .addc128 := ⟨rfl, rfl⟩
theorem sub128 : Statement .sub128 := ⟨rfl, rfl⟩
theorem mulw128 : Statement .mulw128 := ⟨rfl, rfl⟩
theorem mulc128 : Statement .mulc128 := ⟨rfl, rfl⟩
theorem div128 : Statement .div128 := ⟨rfl, rfl⟩
theorem rem128 : Statement .rem128 := ⟨rfl, rfl⟩
theorem divrem128 : Statement .divrem128 := ⟨rfl, rfl⟩
theorem sqrt128 : Statement .sqrt128 := ⟨rfl, rfl⟩
theorem eq128 : Statement .eq128 := ⟨rfl, rfl⟩
theorem lt128 : Statement .lt128 := ⟨rfl, rfl⟩
theorem lte128 : Statement .lte128 := ⟨rfl, rfl⟩
theorem gt128 : Statement .gt128 := ⟨rfl, rfl⟩
theorem gte128 : Statement .gte128 := ⟨rfl, rfl⟩
theorem min128 : Statement .min128 := ⟨rfl, rfl⟩
theorem max128 : Statement .max128 := ⟨rfl, rfl⟩
theorem ismul128 : Statement .ismul128 := ⟨rfl, rfl⟩
theorem zero128 : Statement .zero128 := ⟨rfl, rfl⟩
theorem modulus128 : Statement .modulus128 := ⟨rfl, rfl⟩
theorem export256 : Statement .export256 := ⟨rfl, rfl⟩
theorem narrow256 : Statement .narrow256 := ⟨rfl, rfl⟩
theorem addc256 : Statement .addc256 := ⟨rfl, rfl⟩
theorem sub256 : Statement .sub256 := ⟨rfl, rfl⟩
theorem mulc256 : Statement .mulc256 := ⟨rfl, rfl⟩
theorem div256 : Statement .div256 := ⟨rfl, rfl⟩
theorem rem256 : Statement .rem256 := ⟨rfl, rfl⟩
theorem divrem256 : Statement .divrem256 := ⟨rfl, rfl⟩
theorem sqrt256 : Statement .sqrt256 := ⟨rfl, rfl⟩
theorem eq256 : Statement .eq256 := ⟨rfl, rfl⟩
theorem lt256 : Statement .lt256 := ⟨rfl, rfl⟩
theorem lte256 : Statement .lte256 := ⟨rfl, rfl⟩
theorem gt256 : Statement .gt256 := ⟨rfl, rfl⟩
theorem gte256 : Statement .gte256 := ⟨rfl, rfl⟩
theorem min256 : Statement .min256 := ⟨rfl, rfl⟩
theorem max256 : Statement .max256 := ⟨rfl, rfl⟩
theorem ismul256 : Statement .ismul256 := ⟨rfl, rfl⟩
theorem zero256 : Statement .zero256 := ⟨rfl, rfl⟩
theorem modulus256 : Statement .modulus256 := ⟨rfl, rfl⟩

end Sys2Proof.Laws.LegalForm
end

