-- ==== Sys2Proof/Tests/Slice0.lean ====
section
/-! SUPPORT. Tests, each by evaluation in the kernel. The expected values come from spec/95_test_vectors.md (the
entries `V<n>`, `T<n>`, `P<n>` named in the docstrings), from the tables of spec/30_encoding.md, or from a hand
calculation said in the docstring. The last part gives, for every obligation that has hypotheses, a concrete case
that meets them, clause by clause. -/

namespace Sys2Proof.Tests

open Sys2Proof Sys2Proof.Machine

/-! ### Helpers -/

/-- The reset state with one call presented. -/
def called (cmd : Byte) (a b : Bus) : State := { State.reset with inputs := [.call cmd a b] }

/-- The state after a call has entered `QUERY` from reset, with one answer presented. -/
def answered (cmd : Byte) (a b wq wr : Bus) : State :=
  { State.reset with stage := .query, CMD := cmd, A := a, B := b, inputs := [.answer wq wr] }

/-- The reset state with the operand registers set. -/
def operands (a b : Bus) : State := { State.reset with A := a, B := b }

/-- How a call ended: `CODE`, `RES0`, `RES1`. -/
def ended : Out → Option (Nat × Nat × Nat)
  | .next s => if s.stage = .done then some (s.CODE.toNat, s.RES0.toNat, s.RES1.toNat) else none
  | .fault _ => none
  | .refused _ => none

/-- The call waits for the oracle. -/
def waiting : Out → Bool
  | .next s => s.WREQ
  | .fault _ => false
  | .refused _ => false

/-- The next state, where there is one; otherwise reset. -/
def after : Out → State
  | .next s => s
  | .fault _ => State.reset
  | .refused _ => State.reset

/-- Some next state is answered. -/
def goesOn : Out → Bool
  | .next _ => true
  | .fault _ => false
  | .refused _ => false

/-- The reason a byte is rejected, if it is. -/
def rejection (cmd : Byte) : Option Reject :=
  match decode cmd with
  | .ok _ => none
  | .error r => some r

/-! ### Well-formedness: one ill-formed term for each check, and the well-formed neighbours -/

/-- R49: the eight reserved cells of the map, one row of the table each. -/
theorem test_reserved_cells_are_ill_formed :
    Op.legalAt .exportTo .w64 = false ∧ Op.legalAt .exportTo .w128 = false ∧ Op.legalAt .narrow .w64 = false ∧
    Op.legalAt .addw .w256 = false ∧ Op.legalAt .mulw .w256 = false ∧ Op.legalAt .zero .w64 = false ∧
    Op.legalAt .modulus .w64 = false := by
  decide

/-- R49: their neighbours are legal. -/
theorem test_neighbours_are_well_formed :
    Instr.export256.wellFormed = true ∧ Instr.narrow128.wellFormed = true ∧ Instr.addw128.wellFormed = true ∧
    Instr.mulw128.wellFormed = true ∧ Instr.zero128.wellFormed = true ∧ Instr.modulus256.wellFormed = true := by
  decide

/-- R5: `EXPORT_BITS` is in `1..256`. -/
theorem test_config_range :
    Config.wellFormed { exportBits := 0 } = false ∧ Config.wellFormed { exportBits := 257 } = false ∧
    Config.wellFormed { exportBits := 1 } = true ∧ Config.wellFormed { exportBits := 256 } = true ∧
    Config.wellFormed defaultConfig = true := by
  decide

/-! ### Decoding: every command's byte, written out field by field from R45 to R49 -/

/-- The bytes of group 1, written out field by field. -/
theorem test_decode_convert :
    decode 0b01_001_001 = .ok .narrow128 ∧
    decode 0b10_001_000 = .ok .export256 ∧
    decode 0b10_001_001 = .ok .narrow256 := by
  decide

/-- The bytes of group 2, written out field by field. -/
theorem test_decode_addsub :
    decode 0b00_010_000 = .ok .addw64 ∧
    decode 0b00_010_001 = .ok .addc64 ∧
    decode 0b00_010_010 = .ok .sub64 ∧
    decode 0b01_010_000 = .ok .addw128 ∧
    decode 0b01_010_001 = .ok .addc128 ∧
    decode 0b01_010_010 = .ok .sub128 ∧
    decode 0b10_010_001 = .ok .addc256 ∧
    decode 0b10_010_010 = .ok .sub256 := by
  decide

/-- The bytes of group 3, written out field by field. -/
theorem test_decode_mul :
    decode 0b00_011_000 = .ok .mulw64 ∧
    decode 0b00_011_001 = .ok .mulc64 ∧
    decode 0b01_011_000 = .ok .mulw128 ∧
    decode 0b01_011_001 = .ok .mulc128 ∧
    decode 0b10_011_001 = .ok .mulc256 := by
  decide

/-- The bytes of group 4, written out field by field. -/
theorem test_decode_div :
    decode 0b00_100_000 = .ok .div64 ∧
    decode 0b00_100_001 = .ok .rem64 ∧
    decode 0b00_100_010 = .ok .divrem64 ∧
    decode 0b01_100_000 = .ok .div128 ∧
    decode 0b01_100_001 = .ok .rem128 ∧
    decode 0b01_100_010 = .ok .divrem128 ∧
    decode 0b10_100_000 = .ok .div256 ∧
    decode 0b10_100_001 = .ok .rem256 ∧
    decode 0b10_100_010 = .ok .divrem256 := by
  decide

/-- The bytes of group 5, written out field by field. -/
theorem test_decode_sqrt :
    decode 0b00_101_000 = .ok .sqrt64 ∧
    decode 0b01_101_000 = .ok .sqrt128 ∧
    decode 0b10_101_000 = .ok .sqrt256 := by
  decide

/-- The bytes of group 6, written out field by field. -/
theorem test_decode_compare :
    decode 0b00_110_000 = .ok .eq64 ∧
    decode 0b00_110_001 = .ok .lt64 ∧
    decode 0b00_110_010 = .ok .lte64 ∧
    decode 0b00_110_011 = .ok .gt64 ∧
    decode 0b00_110_100 = .ok .gte64 ∧
    decode 0b00_110_101 = .ok .min64 ∧
    decode 0b00_110_110 = .ok .max64 ∧
    decode 0b00_110_111 = .ok .ismul64 ∧
    decode 0b01_110_000 = .ok .eq128 ∧
    decode 0b01_110_001 = .ok .lt128 ∧
    decode 0b01_110_010 = .ok .lte128 ∧
    decode 0b01_110_011 = .ok .gt128 ∧
    decode 0b01_110_100 = .ok .gte128 ∧
    decode 0b01_110_101 = .ok .min128 ∧
    decode 0b01_110_110 = .ok .max128 ∧
    decode 0b01_110_111 = .ok .ismul128 ∧
    decode 0b10_110_000 = .ok .eq256 ∧
    decode 0b10_110_001 = .ok .lt256 ∧
    decode 0b10_110_010 = .ok .lte256 ∧
    decode 0b10_110_011 = .ok .gt256 ∧
    decode 0b10_110_100 = .ok .gte256 ∧
    decode 0b10_110_101 = .ok .min256 ∧
    decode 0b10_110_110 = .ok .max256 ∧
    decode 0b10_110_111 = .ok .ismul256 := by
  decide

/-- The bytes of group 7, written out field by field. -/
theorem test_decode_const :
    decode 0b01_111_000 = .ok .zero128 ∧
    decode 0b01_111_001 = .ok .modulus128 ∧
    decode 0b10_111_000 = .ok .zero256 ∧
    decode 0b10_111_001 = .ok .modulus256 := by
  decide

/-- R50, section 2.8 of the vectors: each reason for which a byte is no command. -/
theorem test_illegal_bytes_are_rejected_by_name :
    rejection 0x00 = some .reservedGroup ∧ rejection 0x08 = some .noCommandAtWidth ∧
    rejection 0x09 = some .noCommandAtWidth ∧ rejection 0x0A = some .unassignedFunction ∧
    rejection 0x13 = some .unassignedFunction ∧ rejection 0x23 = some .unassignedFunction ∧
    rejection 0x29 = some .unassignedFunction ∧ rejection 0x38 = some .noCommandAtWidth ∧
    rejection 0x48 = some .noCommandAtWidth ∧ rejection 0x7A = some .unassignedFunction ∧
    rejection 0x90 = some .noCommandAtWidth ∧ rejection 0x98 = some .noCommandAtWidth ∧
    rejection 0xC0 = some .reservedWidth ∧ rejection 0xFF = some .reservedWidth := by
  decide

/-- R50: 200 of the 256 bytes are illegal, and the decoder rejects those and no other. -/
theorem test_two_hundred_bytes_are_illegal :
    (List.range 256).countP (fun n => illegalByte (BitVec.ofNat 8 n)) = 200 ∧
    (List.range 256).all (fun n =>
      illegalByte (BitVec.ofNat 8 n) == (rejection (BitVec.ofNat 8 n)).isSome) = true := by
  decide +kernel

/-- A list of bytes: the first byte is the command (R45); no byte is no command. -/
theorem test_decode_bytes :
    decodeBytes [0x51, 0xFF] = .ok (.addc128, [0xFF]) ∧ decodeBytes [] = .error .noByte := by
  decide

/-- The opcode table's word for `ADDC.128`; a word of another length is none. -/
theorem test_table_word :
    decodeTableWord 8 0x51 = some .addc128 ∧ decodeTableWord 8 0xFF = none ∧ decodeTableWord 16 0x51 = none := by
  decide

/-- R48, R54: mnemonics. -/
theorem test_mnemonics :
    Instr.mnemonic .addc128 = "ADDC.128" ∧ Instr.mnemonic .export256 = "EXPORT.256" ∧
    Instr.mnemonic .ismul64 = "ISMUL.64" := by
  decide

/-! ### The vectors: one step each, from reset or from the `QUERY` state the call enters -/

/-- V20, V21: `ADDW.64`. -/
theorem test_vectors_addw64 :
    ended (step (called 0x10 0xFFFFFFFFFFFFFFFF 0xFFFFFFFFFFFFFFFF)) = some (0, 0x1FFFFFFFFFFFFFFFE, 0) ∧
    ended (step (called 0x10 0xFFFFFFFFFFFFFFFF 1)) = some (0, 0x10000000000000000, 0) := by
  decide

/-- V27, V30, V320: `ADDC.64`. -/
theorem test_vectors_addc64 :
    ended (step (called 0x11 0xFFFFFFFFFFFFFFFE 1)) = some (0, 0xFFFFFFFFFFFFFFFF, 0) ∧
    ended (step (called 0x11 0x8000000000000000 0x8000000000000000)) = some (1, 0, 0) ∧
    ended (step (called 0x11 0x10000000000000000 0)) = some (10, 0, 0) := by
  decide

/-- V43, V42, V324: `SUB.64`. -/
theorem test_vectors_sub64 :
    ended (step (called 0x12 0xFFFFFFFFFFFFFFFF 0xFFFFFFFFFFFFFFFF)) = some (0, 0, 0) ∧
    ended (step (called 0x12 0 1)) = some (2, 0, 0) ∧
    ended (step (called 0x12 0 0x10000000000000000)) = some (10, 0, 0) := by
  decide

/-- V60, V65: `MULW.64`. -/
theorem test_vectors_mulw64 :
    ended (step (called 0x18 0xFFFFFFFFFFFFFFFF 0xFFFFFFFFFFFFFFFF)) = some (0, 0xFFFFFFFFFFFFFFFE0000000000000001, 0) ∧
    ended (step (called 0x18 0xDEADBEEFCAFEBABE 0x123456789ABCDEF)) = some (0, 0xFD5BDEEEB2A01D7EB689F4EA447D62, 0) := by
  decide

/-- V73, V74: `MULC.64`. -/
theorem test_vectors_mulc64 :
    ended (step (called 0x19 0x100000000 0xFFFFFFFF)) = some (0, 0xFFFFFFFF00000000, 0) ∧
    ended (step (called 0x19 0x100000000 0x100000000)) = some (1, 0, 0) := by
  decide

/-- V111, V101, V102: `DIV.64`. -/
theorem test_vectors_div64 :
    waiting (step (called 0x20 0xFFFFFFFFFFFFFFFF 1)) = true ∧
    ended (step (answered 0x20 0xFFFFFFFFFFFFFFFF 1 0xFFFFFFFFFFFFFFFF 0)) = some (0, 0xFFFFFFFFFFFFFFFF, 0) ∧
    ended (step (answered 0x20 10 5 1 5)) = some (4, 0, 0) ∧
    ended (step (answered 0x20 8 5 1 2)) = some (5, 0, 0) := by
  decide

/-- V114, V140: `REM.64`. -/
theorem test_vectors_rem64 :
    waiting (step (called 0x21 0xFFFFFFFFFFFFFFFF 10)) = true ∧
    ended (step (answered 0x21 0xFFFFFFFFFFFFFFFF 10 0x1999999999999999 5)) = some (0, 5, 0) ∧
    ended (step (answered 0x21 17 5 3 3)) = some (5, 0, 0) := by
  decide

/-- V113, V141: `DIVREM.64`. -/
theorem test_vectors_divrem64 :
    waiting (step (called 0x22 0xFFFFFFFFFFFFFFFF 10)) = true ∧
    ended (step (answered 0x22 0xFFFFFFFFFFFFFFFF 10 0x1999999999999999 5)) = some (0, 0x1999999999999999, 5) ∧
    ended (step (answered 0x22 17 5 2 7)) = some (4, 0, 0) := by
  decide

/-- V175, V168, V170: `SQRT.64`. -/
theorem test_vectors_sqrt64 :
    waiting (step (called 0x28 4 0x100000000000000000000000000000000000000000000000000)) = true ∧
    ended (step (answered 0x28 4 0x100000000000000000000000000000000000000000000000000 2 0)) = some (0, 2, 0) ∧
    ended (step (answered 0x28 0xFFFFFFFFFFFFFFFF 0 0x100000000 0)) = some (6, 0, 0) ∧
    ended (step (answered 0x28 0xFFFFFFFFFFFFFFFF 0 0xFFFFFFFE 0)) = some (7, 0, 0) := by
  decide

/-- V200, V201, V245: `EQ.64`. -/
theorem test_vectors_eq64 :
    ended (step (called 0x30 5 5)) = some (0, 1, 0) ∧
    ended (step (called 0x30 5 6)) = some (0, 0, 0) ∧
    ended (step (called 0x30 0x10000000000000000 0)) = some (10, 0, 0) := by
  decide

/-- V210, V208: `LT.64`. -/
theorem test_vectors_lt64 :
    ended (step (called 0x31 0 0xFFFFFFFFFFFFFFFF)) = some (0, 1, 0) ∧
    ended (step (called 0x31 6 5)) = some (0, 0, 0) := by
  decide

/-- V218, V219: `LTE.64`. -/
theorem test_vectors_lte64 :
    ended (step (called 0x32 5 5)) = some (0, 1, 0) ∧
    ended (step (called 0x32 6 5)) = some (0, 0, 0) := by
  decide

/-- V223, V224: `GT.64`. -/
theorem test_vectors_gt64 :
    ended (step (called 0x33 6 5)) = some (0, 1, 0) ∧
    ended (step (called 0x33 5 5)) = some (0, 0, 0) := by
  decide

/-- V228, V229: `GTE.64`. -/
theorem test_vectors_gte64 :
    ended (step (called 0x34 5 5)) = some (0, 1, 0) ∧
    ended (step (called 0x34 4 5)) = some (0, 0, 0) := by
  decide

/-- V233, V234: `MIN.64`. -/
theorem test_vectors_min64 :
    ended (step (called 0x35 3 9)) = some (0, 3, 0) ∧
    ended (step (called 0x35 9 3)) = some (0, 3, 0) := by
  decide

/-- V239, V247: `MAX.64`. -/
theorem test_vectors_max64 :
    ended (step (called 0x36 3 9)) = some (0, 9, 0) ∧
    ended (step (called 0x36 1 0x8000000000000000000000000000000000000000000000000000000000000000)) = some (10, 0, 0) := by
  decide

/-- V260, V261, V265: `ISMUL.64`. -/
theorem test_vectors_ismul64 :
    waiting (step (called 0x37 10 5)) = true ∧
    ended (step (answered 0x37 10 5 2 0)) = some (0, 1, 0) ∧
    ended (step (answered 0x37 11 5 2 1)) = some (0, 0, 0) ∧
    ended (step (answered 0x37 10 5 1 5)) = some (4, 0, 0) := by
  decide

/-- V6, V7, V8: `NARROW.128`. -/
theorem test_vectors_narrow128 :
    ended (step (called 0x49 0xFFFFFFFFFFFFFFFF 0)) = some (0, 0xFFFFFFFFFFFFFFFF, 0) ∧
    ended (step (called 0x49 0x10000000000000000 0)) = some (8, 0, 0) ∧
    ended (step (called 0x49 0x100000000000000000000000000000000 0)) = some (10, 0, 0) := by
  decide

/-- V24, V322: `ADDW.128`. -/
theorem test_vectors_addw128 :
    ended (step (called 0x50 0xFFFFFFFFFFFFFFFFFFFFFFFFFFFFFFFF 0xFFFFFFFFFFFFFFFFFFFFFFFFFFFFFFFF)) = some (0, 0x1FFFFFFFFFFFFFFFFFFFFFFFFFFFFFFFE, 0) ∧
    ended (step (called 0x50 0x100000000000000000000000000000000 1)) = some (10, 0, 0) := by
  decide

/-- V32, V34: `ADDC.128`. -/
theorem test_vectors_addc128 :
    ended (step (called 0x51 0xFFFFFFFFFFFFFFFFFFFFFFFFFFFFFFFE 1)) = some (0, 0xFFFFFFFFFFFFFFFFFFFFFFFFFFFFFFFF, 0) ∧
    ended (step (called 0x51 0x80000000000000000000000000000000 0x80000000000000000000000000000000)) = some (1, 0, 0) := by
  decide

/-- V47, V48: `SUB.128`. -/
theorem test_vectors_sub128 :
    ended (step (called 0x52 0xFFFFFFFFFFFFFFFFFFFFFFFFFFFFFFFF 0xFFFFFFFFFFFFFFFF)) = some (0, 0xFFFFFFFFFFFFFFFF0000000000000000, 0) ∧
    ended (step (called 0x52 0x10000000000000005 0x10000000000000006)) = some (2, 0, 0) := by
  decide

/-- V67, V72: `MULW.128`. -/
theorem test_vectors_mulw128 :
    ended (step (called 0x58 0xFFFFFFFFFFFFFFFFFFFFFFFFFFFFFFFF 0xFFFFFFFFFFFFFFFFFFFFFFFFFFFFFFFF)) = some (0, 0xFFFFFFFFFFFFFFFFFFFFFFFFFFFFFFFE00000000000000000000000000000001, 0) ∧
    ended (step (called 0x58 0xFFFFFFFFFFFFFFFF0000000000000001 0xFFFFFFFFFFFFFFFFFFFFFFFFFFFFFFFF)) = some (0, 0xFFFFFFFFFFFFFFFF00000000000000000000000000000000FFFFFFFFFFFFFFFF, 0) := by
  decide

/-- V82, V80, V323: `MULC.128`. -/
theorem test_vectors_mulc128 :
    ended (step (called 0x59 0x10000000000000000 0xFFFFFFFFFFFFFFFF)) = some (0, 0xFFFFFFFFFFFFFFFF0000000000000000, 0) ∧
    ended (step (called 0x59 0x10000000000000000 0x10000000000000000)) = some (1, 0, 0) ∧
    ended (step (called 0x59 0x8000000000000000000000000000000000000000000000000000000000000000 0)) = some (10, 0, 0) := by
  decide

/-- V121, V125, V120: `DIV.128`. -/
theorem test_vectors_div128 :
    waiting (step (called 0x60 0xFFFFFFFFFFFFFFFFFFFFFFFFFFFFFFFF 2)) = true ∧
    ended (step (answered 0x60 0xFFFFFFFFFFFFFFFFFFFFFFFFFFFFFFFF 2 0x7FFFFFFFFFFFFFFFFFFFFFFFFFFFFFFF 1)) = some (0, 0x7FFFFFFFFFFFFFFFFFFFFFFFFFFFFFFF, 0) ∧
    ended (step (answered 0x60 5 3 1 0x100000000000000000000000000000000)) = some (4, 0, 0) ∧
    ended (step (answered 0x60 0xFFFFFFFFFFFFFFFFFFFFFFFFFFFFFFFF 2 0xFFFFFFFFFFFFFFFFFFFFFFFFFFFFFFFF 1)) = some (5, 0, 0) := by
  decide

/-- V126: `REM.128`. -/
theorem test_vectors_rem128 :
    waiting (step (called 0x61 0x10000000000000000 0xFFFFFFFFFFFFFFFF)) = true ∧
    ended (step (answered 0x61 0x10000000000000000 0xFFFFFFFFFFFFFFFF 1 1)) = some (0, 1, 0) := by
  decide

/-- V122, V123: `DIVREM.128`. -/
theorem test_vectors_divrem128 :
    waiting (step (called 0x62 0xFFFFFFFFFFFFFFFFFFFFFFFFFFFFFFFF 0xFFFFFFFFFFFFFFFF)) = true ∧
    ended (step (answered 0x62 0xFFFFFFFFFFFFFFFFFFFFFFFFFFFFFFFF 0xFFFFFFFFFFFFFFFF 0x10000000000000001 0)) = some (0, 0x10000000000000001, 0) ∧
    ended (step (answered 0x62 0xFFFFFFFFFFFFFFFFFFFFFFFFFFFFFFFF 3 0x55555555555555555555555555555555 0)) = some (0, 0x55555555555555555555555555555555, 0) := by
  decide

/-- V177, V178, V180: `SQRT.128`. -/
theorem test_vectors_sqrt128 :
    waiting (step (called 0x68 0xFFFFFFFFFFFFFFFFFFFFFFFFFFFFFFFF 0)) = true ∧
    ended (step (answered 0x68 0xFFFFFFFFFFFFFFFFFFFFFFFFFFFFFFFF 0 0xFFFFFFFFFFFFFFFF 0)) = some (0, 0xFFFFFFFFFFFFFFFF, 0) ∧
    ended (step (answered 0x68 0xFFFFFFFFFFFFFFFFFFFFFFFFFFFFFFFF 0 0x10000000000000000 0)) = some (6, 0, 0) ∧
    ended (step (answered 0x68 0xFFFFFFFFFFFFFFFFFFFFFFFFFFFFFFFF 0 0xFFFFFFFFFFFFFFFE 0)) = some (7, 0, 0) := by
  decide

/-- V202, V203: `EQ.128`. -/
theorem test_vectors_eq128 :
    ended (step (called 0x70 0x10000000000000005 0x10000000000000005)) = some (0, 1, 0) ∧
    ended (step (called 0x70 0x10000000000000005 5)) = some (0, 0, 0) := by
  decide

/-- V211, V213, V246: `LT.128`. -/
theorem test_vectors_lt128 :
    ended (step (called 0x71 0x10000000000000000 0xFFFFFFFFFFFFFFFF)) = some (0, 0, 0) ∧
    ended (step (called 0x71 0x10000000000000005 0x10000000000000006)) = some (0, 1, 0) ∧
    ended (step (called 0x71 0 0x100000000000000000000000000000000)) = some (10, 0, 0) := by
  decide

/-- V220: `LTE.128`. -/
theorem test_vectors_lte128 :
    ended (step (called 0x72 0xFFFFFFFFFFFFFFFFFFFFFFFFFFFFFFFF 0xFFFFFFFFFFFFFFFFFFFFFFFFFFFFFFFF)) = some (0, 1, 0) := by
  decide

/-- V225: `GT.128`. -/
theorem test_vectors_gt128 :
    ended (step (called 0x73 0x10000000000000000 0xFFFFFFFFFFFFFFFF)) = some (0, 1, 0) := by
  decide

/-- V230: `GTE.128`. -/
theorem test_vectors_gte128 :
    ended (step (called 0x74 0 0)) = some (0, 1, 0) := by
  decide

/-- V236: `MIN.128`. -/
theorem test_vectors_min128 :
    ended (step (called 0x75 0x10000000000000000 0xFFFFFFFFFFFFFFFF)) = some (0, 0xFFFFFFFFFFFFFFFF, 0) := by
  decide

/-- V242: `MAX.128`. -/
theorem test_vectors_max128 :
    ended (step (called 0x76 0x10000000000000000 0xFFFFFFFFFFFFFFFF)) = some (0, 0x10000000000000000, 0) := by
  decide

/-- V268, V269, V273: `ISMUL.128`. -/
theorem test_vectors_ismul128 :
    waiting (step (called 0x77 0xFFFFFFFFFFFFFFFFFFFFFFFFFFFFFFFF 0xFFFFFFFFFFFFFFFF)) = true ∧
    ended (step (answered 0x77 0xFFFFFFFFFFFFFFFFFFFFFFFFFFFFFFFF 0xFFFFFFFFFFFFFFFF 0x10000000000000001 0)) = some (0, 1, 0) ∧
    ended (step (answered 0x77 0xFFFFFFFFFFFFFFFFFFFFFFFFFFFFFFFF 0x10000000000000000 0xFFFFFFFFFFFFFFFF 0xFFFFFFFFFFFFFFFF)) = some (0, 0, 0) ∧
    ended (step (called 0x77 0x100000000000000000000000000000000 3)) = some (10, 0, 0) := by
  decide

/-- V284, V280: `ZERO.128`. -/
theorem test_vectors_zero128 :
    ended (step (called 0x78 0xFFFFFFFFFFFFFFFFFFFFFFFFFFFFFFFFFFFFFFFFFFFFFFFFFFFFFFFFFFFFFFFF 0xFFFFFFFFFFFFFFFFFFFFFFFFFFFFFFFFFFFFFFFFFFFFFFFFFFFFFFFFFFFFFFFF)) = some (0, 0, 0) ∧
    ended (step (called 0x78 0 0)) = some (0, 0, 0) := by
  decide

/-- V282: `MODULUS.128`. -/
theorem test_vectors_modulus128 :
    ended (step (called 0x79 0 0)) = some (0, 0x10000000000000000, 0) := by
  decide

/-- V2, V3: `EXPORT.256`. -/
theorem test_vectors_export256 :
    ended (step (called 0x88 0x3FFFFFFFFFFFFFFFFFFFFFFFFFFFFFFFFFFFFFFFFFFFFFFFFFFFFFFFFFFFFFFF 0)) = some (0, 0x3FFFFFFFFFFFFFFFFFFFFFFFFFFFFFFFFFFFFFFFFFFFFFFFFFFFFFFFFFFFFFFF, 0) ∧
    ended (step (called 0x88 0x4000000000000000000000000000000000000000000000000000000000000000 0)) = some (8, 0, 0) := by
  decide

/-- V9, V10: `NARROW.256`. -/
theorem test_vectors_narrow256 :
    ended (step (called 0x89 0xFFFFFFFFFFFFFFFFFFFFFFFFFFFFFFFF 0)) = some (0, 0xFFFFFFFFFFFFFFFFFFFFFFFFFFFFFFFF, 0) ∧
    ended (step (called 0x89 0x100000000000000000000000000000000 0)) = some (8, 0, 0) := by
  decide

/-- V40, V38: `ADDC.256`. -/
theorem test_vectors_addc256 :
    ended (step (called 0x91 0x123456789ABCDEFFEDCBA98765432100F1E2D3C4B5A69788796A5B4C3D2E1F0 0x1111111111111111222222222222222233333333333333339999999999999999)) = some (0, 0x123456789ABCDF0120FEDCBA987654324251606F7E8D9CAC21303F4E5D6C7B89, 0) ∧
    ended (step (called 0x91 0xFFFFFFFFFFFFFFFFFFFFFFFFFFFFFFFFFFFFFFFFFFFFFFFFFFFFFFFFFFFFFFFF 0xFFFFFFFFFFFFFFFFFFFFFFFFFFFFFFFFFFFFFFFFFFFFFFFFFFFFFFFFFFFFFFFF)) = some (1, 0, 0) := by
  decide

/-- V50, V53: `SUB.256`. -/
theorem test_vectors_sub256 :
    ended (step (called 0x92 0x8000000000000000000000000000000000000000000000000000000000000000 0x8000000000000000000000000000000000000000000000000000000000000000)) = some (0, 0, 0) ∧
    ended (step (called 0x92 0x8000000000000000000000000000000000000000000000000000000000000000 0x8000000000000000000000000000000000000000000000000000000000000001)) = some (2, 0, 0) := by
  decide

/-- V90, V84: `MULC.256`. -/
theorem test_vectors_mulc256 :
    ended (step (called 0x99 0x100000000000000000000000000000000000000000000003039 0x80000000000001)) = some (0, 0x8000000000000100000000000000000000000000000000181C80000000003039, 0) ∧
    ended (step (called 0x99 0x100000000000000000000000000000000 0x100000000000000000000000000000000)) = some (1, 0, 0) := by
  decide +kernel

/-- V136, V132, V134: `DIV.256`. -/
theorem test_vectors_div256 :
    waiting (step (called 0xA0 0xFFFFFFFFFFFFFFFFFFFFFFFFFFFFFFFFFFFFFFFFFFFFFFFFFFFFFFFFFFFFFFFF 0xFFFFFFFFFFFFFFFFFFFFFFFFFFFFFFFFFFFFFFFFFFFFFFFFFFFFFFFFFFFFFFFF)) = true ∧
    ended (step (answered 0xA0 0xFFFFFFFFFFFFFFFFFFFFFFFFFFFFFFFFFFFFFFFFFFFFFFFFFFFFFFFFFFFFFFFF 0xFFFFFFFFFFFFFFFFFFFFFFFFFFFFFFFFFFFFFFFFFFFFFFFFFFFFFFFFFFFFFFFF 1 0)) = some (0, 1, 0) ∧
    ended (step (answered 0xA0 0 1 0x8000000000000000000000000000000000000000000000000000000000000000 0)) = some (5, 0, 0) ∧
    ended (step (called 0xA0 0xFFFFFFFFFFFFFFFFFFFFFFFFFFFFFFFFFFFFFFFFFFFFFFFFFFFFFFFFFFFFFFFF 0)) = some (3, 0, 0) := by
  decide

/-- V131: `REM.256`. -/
theorem test_vectors_rem256 :
    waiting (step (called 0xA1 0xFFFFFFFFFFFFFFFFFFFFFFFFFFFFFFFFFFFFFFFFFFFFFFFFFFFFFFFFFFFFFFFF 7)) = true ∧
    ended (step (answered 0xA1 0xFFFFFFFFFFFFFFFFFFFFFFFFFFFFFFFFFFFFFFFFFFFFFFFFFFFFFFFFFFFFFFFF 7 0x2492492492492492492492492492492492492492492492492492492492492492 1)) = some (0, 1, 0) := by
  decide

/-- V129, V130: `DIVREM.256`. -/
theorem test_vectors_divrem256 :
    waiting (step (called 0xA2 0xFFFFFFFFFFFFFFFFFFFFFFFFFFFFFFFFFFFFFFFFFFFFFFFFFFFFFFFFFFFFFFFF 0xFFFFFFFFFFFFFFFFFFFFFFFFFFFFFFFF)) = true ∧
    ended (step (answered 0xA2 0xFFFFFFFFFFFFFFFFFFFFFFFFFFFFFFFFFFFFFFFFFFFFFFFFFFFFFFFFFFFFFFFF 0xFFFFFFFFFFFFFFFFFFFFFFFFFFFFFFFF 0x100000000000000000000000000000001 0)) = some (0, 0x100000000000000000000000000000001, 0) ∧
    ended (step (answered 0xA2 0xFFFFFFFFFFFFFFFFFFFFFFFFFFFFFFFFFFFFFFFFFFFFFFFFFFFFFFFFFFFFFFFF 0x100000000000000000000000000000001 0xFFFFFFFFFFFFFFFFFFFFFFFFFFFFFFFF 0)) = some (0, 0xFFFFFFFFFFFFFFFFFFFFFFFFFFFFFFFF, 0) := by
  decide

/-- V185, V186, V188: `SQRT.256`. -/
theorem test_vectors_sqrt256 :
    waiting (step (called 0xA8 0xFFFFFFFFFFFFFFFFFFFFFFFFFFFFFFFFFFFFFFFFFFFFFFFFFFFFFFFFFFFFFFFF 0)) = true ∧
    ended (step (answered 0xA8 0xFFFFFFFFFFFFFFFFFFFFFFFFFFFFFFFFFFFFFFFFFFFFFFFFFFFFFFFFFFFFFFFF 0 0xFFFFFFFFFFFFFFFFFFFFFFFFFFFFFFFF 0)) = some (0, 0xFFFFFFFFFFFFFFFFFFFFFFFFFFFFFFFF, 0) ∧
    ended (step (answered 0xA8 0xFFFFFFFFFFFFFFFFFFFFFFFFFFFFFFFFFFFFFFFFFFFFFFFFFFFFFFFFFFFFFFFF 0 0x100000000000000000000000000000000 0)) = some (6, 0, 0) ∧
    ended (step (answered 0xA8 0xFFFFFFFFFFFFFFFFFFFFFFFFFFFFFFFFFFFFFFFFFFFFFFFFFFFFFFFFFFFFFFFF 0 0xFFFFFFFFFFFFFFFFFFFFFFFFFFFFFFFE 0)) = some (7, 0, 0) := by
  decide

/-- V204, V205: `EQ.256`. -/
theorem test_vectors_eq256 :
    ended (step (called 0xB0 0xFFFFFFFFFFFFFFFFFFFFFFFFFFFFFFFFFFFFFFFFFFFFFFFFFFFFFFFFFFFFFFFF 0xFFFFFFFFFFFFFFFFFFFFFFFFFFFFFFFFFFFFFFFFFFFFFFFFFFFFFFFFFFFFFFFF)) = some (0, 1, 0) ∧
    ended (step (called 0xB0 0xFFFFFFFFFFFFFFFFFFFFFFFFFFFFFFFFFFFFFFFFFFFFFFFFFFFFFFFFFFFFFFFF 0xFFFFFFFFFFFFFFFFFFFFFFFFFFFFFFFFFFFFFFFFFFFFFFFFFFFFFFFFFFFFFFFE)) = some (0, 0, 0) := by
  decide

/-- V217, V215: `LT.256`. -/
theorem test_vectors_lt256 :
    ended (step (called 0xB1 0xFFFFFFFFFFFFFFFFFFFFFFFFFFFFFFFFFFFFFFFFFFFFFFFFFFFFFFFFFFFFFFFF 0xFFFFFFFFFFFFFFFFFFFFFFFFFFFFFFFFFFFFFFFFFFFFFFFFFFFFFFFFFFFFFFFF)) = some (0, 0, 0) ∧
    ended (step (called 0xB1 0xFFFFFFFFFFFFFFFFFFFFFFFFFFFFFFFFFFFFFFFFFFFFFFFF 0x1000000000000000000000000000000000000000000000000)) = some (0, 1, 0) := by
  decide

/-- V221, V222: `LTE.256`. -/
theorem test_vectors_lte256 :
    ended (step (called 0xB2 0 0xFFFFFFFFFFFFFFFFFFFFFFFFFFFFFFFFFFFFFFFFFFFFFFFFFFFFFFFFFFFFFFFF)) = some (0, 1, 0) ∧
    ended (step (called 0xB2 0xFFFFFFFFFFFFFFFFFFFFFFFFFFFFFFFFFFFFFFFFFFFFFFFFFFFFFFFFFFFFFFFF 0)) = some (0, 0, 0) := by
  decide

/-- V226, V227: `GT.256`. -/
theorem test_vectors_gt256 :
    ended (step (called 0xB3 0x8000000000000000000000000000000000000000000000000000000000000000 0x7FFFFFFFFFFFFFFFFFFFFFFFFFFFFFFFFFFFFFFFFFFFFFFFFFFFFFFFFFFFFFFF)) = some (0, 1, 0) ∧
    ended (step (called 0xB3 0 0)) = some (0, 0, 0) := by
  decide

/-- V231, V232: `GTE.256`. -/
theorem test_vectors_gte256 :
    ended (step (called 0xB4 0xFFFFFFFFFFFFFFFFFFFFFFFFFFFFFFFFFFFFFFFFFFFFFFFFFFFFFFFFFFFFFFFF 0xFFFFFFFFFFFFFFFFFFFFFFFFFFFFFFFFFFFFFFFFFFFFFFFFFFFFFFFFFFFFFFFE)) = some (0, 1, 0) ∧
    ended (step (called 0xB4 0xFFFFFFFFFFFFFFFFFFFFFFFFFFFFFFFFFFFFFFFFFFFFFFFFFFFFFFFFFFFFFFFE 0xFFFFFFFFFFFFFFFFFFFFFFFFFFFFFFFFFFFFFFFFFFFFFFFFFFFFFFFFFFFFFFFF)) = some (0, 0, 0) := by
  decide

/-- V238, V237: `MIN.256`. -/
theorem test_vectors_min256 :
    ended (step (called 0xB5 0x1000000000000000000000000000000000000000000000000 0xFFFFFFFFFFFFFFFFFFFFFFFFFFFFFFFFFFFFFFFFFFFFFFFF)) = some (0, 0xFFFFFFFFFFFFFFFFFFFFFFFFFFFFFFFFFFFFFFFFFFFFFFFF, 0) ∧
    ended (step (called 0xB5 0xFFFFFFFFFFFFFFFFFFFFFFFFFFFFFFFFFFFFFFFFFFFFFFFFFFFFFFFFFFFFFFFF 0)) = some (0, 0, 0) := by
  decide

/-- V244, V243: `MAX.256`. -/
theorem test_vectors_max256 :
    ended (step (called 0xB6 0x1000000000000000000000000000000000000000000000000 0xFFFFFFFFFFFFFFFFFFFFFFFFFFFFFFFFFFFFFFFFFFFFFFFF)) = some (0, 0x1000000000000000000000000000000000000000000000000, 0) ∧
    ended (step (called 0xB6 0xFFFFFFFFFFFFFFFFFFFFFFFFFFFFFFFFFFFFFFFFFFFFFFFFFFFFFFFFFFFFFFFF 0)) = some (0, 0xFFFFFFFFFFFFFFFFFFFFFFFFFFFFFFFFFFFFFFFFFFFFFFFFFFFFFFFFFFFFFFFF, 0) := by
  decide

/-- V270, V271: `ISMUL.256`. -/
theorem test_vectors_ismul256 :
    waiting (step (called 0xB7 0xFFFFFFFFFFFFFFFFFFFFFFFFFFFFFFFFFFFFFFFFFFFFFFFFFFFFFFFFFFFFFFFF 0xFFFFFFFFFFFFFFFFFFFFFFFFFFFFFFFF)) = true ∧
    ended (step (answered 0xB7 0xFFFFFFFFFFFFFFFFFFFFFFFFFFFFFFFFFFFFFFFFFFFFFFFFFFFFFFFFFFFFFFFF 0xFFFFFFFFFFFFFFFFFFFFFFFFFFFFFFFF 0x100000000000000000000000000000001 0)) = some (0, 1, 0) ∧
    ended (step (answered 0xB7 0xFFFFFFFFFFFFFFFFFFFFFFFFFFFFFFFFFFFFFFFFFFFFFFFFFFFFFFFFFFFFFFFF 0x100000000000000000000000000000000 0xFFFFFFFFFFFFFFFFFFFFFFFFFFFFFFFF 0xFFFFFFFFFFFFFFFFFFFFFFFFFFFFFFFF)) = some (0, 0, 0) := by
  decide

/-- V281: `ZERO.256`. -/
theorem test_vectors_zero256 :
    ended (step (called 0xB8 0 0)) = some (0, 0, 0) := by
  decide

/-- V285, V283: `MODULUS.256`. -/
theorem test_vectors_modulus256 :
    ended (step (called 0xB9 0xFFFFFFFFFFFFFFFFFFFFFFFFFFFFFFFFFFFFFFFFFFFFFFFFFFFFFFFFFFFFFFFF 0xFFFFFFFFFFFFFFFFFFFFFFFFFFFFFFFFFFFFFFFFFFFFFFFFFFFFFFFFFFFFFFFF)) = some (0, 0x100000000000000000000000000000000, 0) ∧
    ended (step (called 0xB9 0 0)) = some (0, 0x100000000000000000000000000000000, 0) := by
  decide

/-! ### Illegal bytes, the parameter, the datapath of the verifiers, traces and programs -/

/-- V300, V313, V317: an illegal byte ends in code 9 whatever the operands. -/
theorem test_vectors_illegal_byte :
    ended (step (called 0x00 (BitVec.allOnes 256) (BitVec.allOnes 256))) = some (9, 0, 0) ∧
    ended (step (called 0x90 5 0)) = some (9, 0, 0) ∧ ended (step (called 0xFF 5 0)) = some (9, 0, 0) := by
  decide

/-- R63 with `EXPORT_BITS` at the ends of its range, by hand: at 1 only 0 and 1 pass, at 256 all values do. -/
theorem test_export_bits_parameter :
    ended (exec .export256 { operands 1 0 with cfg := { exportBits := 1 } }) = some (0, 1, 0) ∧
    ended (exec .export256 { operands 2 0 with cfg := { exportBits := 1 } }) = some (8, 0, 0) ∧
    ended (exec .export256 { operands (BitVec.allOnes 256) 0 with cfg := { exportBits := 256 } }) =
      some (0, 2 ^ 256 - 1, 0) := by
  decide

/-- R109 on V119, V128, V133: a product beyond the width is a mismatch; V121: the honest answer reconstructs. -/
theorem test_division_datapath :
    reconOk .w64 0 2 0x8000000000000000 0 = false ∧
    reconOk .w128 0 0x10000000000000000 0x10000000000000000 0 = false ∧
    reconOk .w256 0 2 0x8000000000000000000000000000000000000000000000000000000000000000 0 = false ∧
    reconOk .w128 0xFFFFFFFFFFFFFFFFFFFFFFFFFFFFFFFF 2 0x7FFFFFFFFFFFFFFFFFFFFFFFFFFFFFFF 1 = true := by
  decide +kernel

/-- R129 on V167, V168, V165, V173 and V185: the corners of the two bounds. -/
theorem test_square_root_datapath :
    sqrtCheck .w64 0xFFFFFFFFFFFFFFFF 0xFFFFFFFF = .accept ∧
    sqrtCheck .w64 0xFFFFFFFFFFFFFFFF 0x100000000 = .overestimate ∧
    sqrtCheck .w64 121 10 = .underestimate ∧
    sqrtCheck .w64 100 0x100000000000000000000000000000000000000000000000000 = .overestimate ∧
    sqrtCheck .w256 (BitVec.allOnes 256) 0xFFFFFFFFFFFFFFFFFFFFFFFFFFFFFFFF = .accept := by
  decide +kernel

/-- S6: the columns of the doc's end-to-end product, limb by limb. -/
theorem test_limb_multiplier :
    mul64 0xFFFFFFFFFFFFFFFF 2 = (0xFFFFFFFFFFFFFFFE, 1) ∧
    mulwide128 0xFFFFFFFFFFFFFFFFFFFFFFFFFFFFFFFF 2 = 0x1FFFFFFFFFFFFFFFFFFFFFFFFFFFFFFFE := by
  decide

/-- S12: the scalar and its U256. -/
theorem test_structured_form :
    U256.ofFlat 0x000000000000000100000000000000020000000000000003 =
      { low := { low := 3, high := 2 }, high := { low := 1, high := 0 } } ∧
    (U256.flat { low := { low := 3, high := 2 }, high := { low := 1, high := 0 } }) =
      0x000000000000000100000000000000020000000000000003 := by
  decide

/-- T1, lines 1 to 5: an answer out of `QUERY` is dropped, a call in `QUERY` is not accepted, the answer ends the
call and the block is ready again. -/
theorem test_trace_t1 :
    after (step { State.reset with inputs := [.answer 9 9] }) = State.reset ∧
    after (step { called 0x22 17 5 with inputs := [.call 0x22 17 5, .call 0x11 1 1] }) =
      { answered 0x22 17 5 0 0 with inputs := [.call 0x11 1 1] } ∧
    after (step { answered 0x22 17 5 0 0 with inputs := [.call 0x11 1 1] }) =
      { answered 0x22 17 5 0 0 with inputs := [] } ∧
    after (step (answered 0x22 17 5 3 2)) =
      { operands 17 5 with stage := .done, CMD := 0x22, RES0 := 3, RES1 := 2 } := by
  decide

/-- T1, the request signals of line 2; T2, those of line 2. -/
theorem test_witness_request :
    (answered 0x22 17 5 3 2).witnessRequest = some { WKIND := 0, WW := 0, WA := 17, WB := 5 } ∧
    (answered 0x68 16 0 4 0).witnessRequest = some { WKIND := 1, WW := 1, WA := 16, WB := 0 } ∧
    State.reset.witnessRequest = none := by
  decide

/-- T2, line 2: the response port keeps the last outcome while `DONE_O` is 0; line 3: `reset` abandons the call;
line 5: a stale answer is verified against the outstanding call. -/
theorem test_trace_t2 :
    after (step { operands 3 4 with stage := .done, CMD := 0x99, RES0 := 12, inputs := [.call 0x68 16 0] }) =
      { operands 16 0 with stage := .query, CMD := 0x68, RES0 := 12 } ∧
    after (step { operands 16 0 with stage := .query, CMD := 0x68, RES0 := 12, inputs := [.reset] }) = State.reset ∧
    ended (step (answered 0x28 25 0 4 0)) = some (7, 0, 0) := by
  decide

/-- R16: `STATUS` in `DONE` with code 10, in `QUERY`, and after reset. -/
theorem test_status :
    State.STATUS { State.reset with stage := .done, CODE := 10 } = 0x2A ∧
    State.STATUS { State.reset with stage := .query } = 0x10 ∧ State.reset.STATUS = 0x00 := by
  decide

/-- The model's own: with nothing presented the machine stays as it is; a presented command is run next, from
reset and while a query is outstanding. -/
theorem test_with_fetch_word :
    after (step State.reset) = State.reset ∧
    ended (step (State.reset.withFetchWord 8 0xB9)) = some (0, 2 ^ 128, 0) ∧
    ended (step ((answered 0x22 17 5 3 2).withFetchWord 8 0x11)) = some (0, 22, 0) := by
  decide

/-- The model's own: an answer in `QUERY` with a byte latched that queries nothing stops the machine. -/
theorem test_no_witness_command :
    goesOn (step (answered 0x11 1 1 0 0)) = false ∧ goesOn (step (answered 0x00 1 1 0 0)) = false := by
  decide

/-- Program P3 of the vectors stops at its third line with code 7. -/
theorem test_program_p3 :
    ended (runListing [⟨.sqrt64, .value 100, .value 0, some (.candidate 10 0)⟩, ⟨.mulc64, .res0, .res0, none⟩,
      ⟨.sqrt64, .value 100, .value 0, some (.candidate 9 0)⟩, ⟨.addc64, .value 1, .value 1, none⟩] State.reset) =
      some (7, 0, 0) := by
  decide

/-- The model's own: a listing line that queries and gives no answer ends the listing in `QUERY`; an answer on a line
that does not query plays no part. -/
theorem test_listing_without_an_answer :
    waiting (runListing [⟨.sqrt64, .value 100, .value 0, none⟩, ⟨.sqrt64, .value 4, .value 0, some .honest⟩]
      State.reset) = true ∧
    ended (runListing [⟨.addc64, .value 1, .value 1, some (.candidate 9 9)⟩] State.reset) = some (0, 2, 0) := by
  decide

/-! ### Witnesses: for each obligation with hypotheses, a case that meets them -/

/-- Both operands are below `2^w`. -/
abbrev Within (w : Nat) (s : State) : Prop := s.A.toNat < 2 ^ w ∧ s.B.toNat < 2 ^ w

/-- Some operand has a bit at or above `w`. -/
abbrev TooWide (w : Nat) (s : State) : Prop := 2 ^ w ≤ s.A.toNat ∨ 2 ^ w ≤ s.B.toNat

/-- The largest value of `w` bits. -/
def top (w : Nat) : Bus := BitVec.ofNat 256 (2 ^ w - 1)

/-- The smallest value that `w` bits do not hold. -/
def beyond (w : Nat) : Bus := BitVec.ofNat 256 (2 ^ w)

/-- A `DIV.64` call in `QUERY`, with operands at the top of the width and a second call presented too early. -/
def queryState : State :=
  { operands (top 64) 1 with stage := .query, CMD := 0x20, inputs := [.call 0x11 1 1] }

/-- A completed `DIVREM.64`, with both results. -/
def doneState : State := { operands 17 5 with stage := .done, CMD := 0x22, RES0 := 3, RES1 := 2 }

/-- A call that ended in the fault of the largest code. -/
def faultedState : State := { operands (beyond 64) 0 with stage := .done, CMD := 0x11, CODE := 10 }

theorem witness_invariant_in_query : Inv queryState where
  config := by decide
  code := by decide
  idle := by decide
  query := fun _ => ⟨.div64, by decide⟩
  fault := by decide
  value := fun h => absurd h (by decide)

theorem witness_invariant_done_with_a_value : Inv doneState where
  config := by decide
  code := by decide
  idle := by decide
  query := fun h => absurd h (by decide)
  fault := by decide
  value := fun _ _ => ⟨.divrem64, by decide⟩

theorem witness_invariant_done_with_a_fault : Inv faultedState where
  config := by decide
  code := by decide
  idle := by decide
  query := fun h => absurd h (by decide)
  fault := by decide
  value := fun _ h => absurd h (by decide)

theorem witness_DecodeAndEncodeAgree :
    Instr.wellFormed .ismul256 = true ∧ decode 0xB7 = .ok .ismul256 := by
  decide

theorem witness_IllegalCommandExactlyOnIllegalBytes :
    (called 0xBA 0 0).stage ≠ .query ∧ (called 0xBA 0 0).inputs = .call 0xBA 0 0 :: [] ∧
    illegalByte 0xBA = true ∧ illegalByte 0xB9 = false ∧ illegalByte 0x0F = true ∧ illegalByte 0x10 = false := by
  decide

theorem witness_CallStepRunsTheDecodedCommand :
    (called 0x22 17 5).stage ≠ .query ∧ (called 0x22 17 5).inputs = .call 0x22 17 5 :: [] ∧
    decode 0x22 = .ok .divrem64 := by
  decide

theorem witness_AnswerStepRunsTheLatchedCommand :
    (answered 0x22 17 5 3 2).stage = .query ∧ (answered 0x22 17 5 3 2).inputs = .answer 3 2 :: [] ∧
    decode (answered 0x22 17 5 3 2).CMD = .ok .divrem64 ∧ Instr.divrem64.op.queriesWitness = true := by
  decide

theorem witness_DisabledEventsChangeNoRegister :
    (queryState.stage = .query ∧ queryState.inputs = .call 0x11 1 1 :: []) ∧
    (({ doneState with inputs := [.answer 3 2] } : State).stage ≠ .query) ∧ doneState.inputs = [] := by
  decide

theorem witness_ResetGivesTheListedValues :
    ({ queryState with inputs := [.reset, .answer 1 1] } : State).inputs = .reset :: [.answer 1 1] ∧
    State.reset.stage = .idle ∧ State.reset.CODE = 0 := by
  decide

theorem witness_ResponsePortShowsTheState :
    State.reset.stage = .idle ∧ queryState.stage = .query ∧ doneState.stage = .done := by
  decide

theorem witness_WitnessRequestDescribesTheCall :
    Inv queryState ∧ queryState.stage = .query ∧ goesOn (step queryState) = true ∧
    (after (step queryState)).stage = .query ∧ Instr.div64.op.dividesByWitness = true ∧ Instr.sqrt64.op = .sqrt :=
  ⟨witness_invariant_in_query, by decide⟩

theorem witness_EveryStepKeepsTheInvariant :
    Inv queryState ∧ ∃ t, step queryState = .next t :=
  ⟨witness_invariant_in_query, _, rfl⟩

theorem witness_NoStepStopsTheMachine :
    Inv faultedState ∧ Inv doneState := ⟨witness_invariant_done_with_a_fault, witness_invariant_done_with_a_value⟩

theorem witness_FaultEntryWritesOnlyTheOutcome :
    (ended (step (called 0x20 7 0)) = some (3, 0, 0) ∧ (called 0x20 7 0).stage ≠ .query) ∧
    (ended (step (answered 0x20 8 5 1 2)) = some (5, 0, 0) ∧ (answered 0x20 8 5 1 2).stage = .query) := by
  decide

theorem witness_CommandsWriteOnlyTheOutcomeRegisters :
    goesOn (exec .div64 (answered 0x20 8 5 1 3)) = true ∧ waiting (exec .sqrt64 (operands 4 0)) = true ∧
    goesOn (exec .addc64 (operands 1 1)) = true := by
  decide

theorem witness_OutcomeDependsOnTheCallAlone :
    (ended (step { doneState with inputs := [.call 0x11 1 1] }) = some (0, 2, 0) ∧
      ended (step (called 0x11 1 1)) = some (0, 2, 0) ∧ doneState.cfg = State.reset.cfg) ∧
    (ended (step { answered 0x20 8 5 1 3 with RES0 := 7 }) = some (0, 1, 0) ∧
      ended (step (answered 0x20 8 5 1 3)) = some (0, 1, 0)) := by
  decide

theorem witness_CommandsEndInTheListedCodes :
    ended (exec .addc64 (operands (beyond 64) 0)) = some (10, 0, 0) ∧ (operands (beyond 64) 0).stage ≠ .query ∧
    ended (exec .sqrt64 (answered 0x28 4 0 2 0)) = some (0, 2, 0) ∧ Instr.sqrt64.op.queriesWitness = true := by
  decide

theorem witness_OperandRangeExactlyWhenAUsedOperandIsTooWide :
    (decode 0x11 = .ok .addc64 ∧ (called 0x11 (beyond 64) 0).stage ≠ .query ∧
      ended (step (called 0x11 (beyond 64) 0)) = some (10, 0, 0)) ∧
    (ended (step (called 0x11 (top 64) 0)) = some (0, 2 ^ 64 - 1, 0)) ∧
    (decode 0x28 = .ok .sqrt64 ∧ waiting (step (called 0x28 (top 64) (beyond 255))) = true) := by
  decide

theorem witness_DivisionDatapathDecidesReconstruction :
    (8 : Bus).toNat < 2 ^ Width.bits .w64 ∧ (5 : Bus).toNat < 2 ^ Width.bits .w64 ∧
    (3 : Bus).toNat < (5 : Bus).toNat ∧ reconOk .w64 8 5 1 3 = true ∧
    (4 : Bus).toNat < (5 : Bus).toNat ∧ reconOk .w64 8 5 1 4 = false := by
  decide

theorem witness_SquareRootDatapathDecidesBothBounds :
    (top 64).toNat < 2 ^ Width.bits .w64 ∧
    sqrtCheck .w64 (top 64) (top 32) = .accept ∧ sqrtCheck .w64 (top 64) (beyond 32) = .overestimate ∧
    sqrtCheck .w64 4 1 = .underestimate ∧ sqrtCheck .w64 4 2 = .accept := by
  decide

theorem witness_SplittingAndJoiningLimbsAreInverse :
    3 < 4 ∧ (toWide 4 (beyond 192))[3]? = some 1 := by
  decide

theorem witness_ExportPassesBelowTheLimit :
    ((operands (top 254) 0).A.toNat < 2 ^ (operands (top 254) 0).cfg.exportBits ∧
      ended (exec .export256 (operands (top 254) 0)) = some (0, 2 ^ 254 - 1, 0)) ∧
    (2 ^ (operands (beyond 254) 0).cfg.exportBits ≤ (operands (beyond 254) 0).A.toNat ∧
      ended (exec .export256 (operands (beyond 254) 0)) = some (8, 0, 0)) := by
  decide

theorem witness_NarrowPassesBelowHalfTheWidth :
    ended (exec .narrow128 (operands (top 64) 0)) = some (0, 2 ^ 64 - 1, 0) ∧
    ended (exec .narrow128 (operands (beyond 64) 0)) = some (8, 0, 0) ∧
    ended (exec .narrow128 (operands (top 128) 0)) = some (8, 0, 0) ∧
    ended (exec .narrow128 (operands (beyond 128) 0)) = some (10, 0, 0) ∧
    ended (exec .narrow256 (operands (top 128) 0)) = some (0, 2 ^ 128 - 1, 0) ∧
    ended (exec .narrow256 (operands (beyond 128) 0)) = some (8, 0, 0) := by
  decide

theorem witness_WideningAddIsExact :
    (Within 64 (operands (top 64) (top 64)) ∧
      ended (exec .addw64 (operands (top 64) (top 64))) = some (0, 2 ^ 65 - 2, 0)) ∧
    (TooWide 64 (operands 0 (beyond 64)) ∧ ended (exec .addw64 (operands 0 (beyond 64))) = some (10, 0, 0)) ∧
    (Within 128 (operands (top 128) (top 128)) ∧
      ended (exec .addw128 (operands (top 128) (top 128))) = some (0, 2 ^ 129 - 2, 0)) ∧
    (TooWide 128 (operands (beyond 128) 0) ∧ ended (exec .addw128 (operands (beyond 128) 0)) = some (10, 0, 0)) := by
  decide

theorem witness_CheckedAddIsExactOrOverflows :
    (Within 64 (operands (top 64) 0) ∧ ended (exec .addc64 (operands (top 64) 0)) = some (0, 2 ^ 64 - 1, 0)) ∧
    (Within 64 (operands (top 64) 1) ∧ ended (exec .addc64 (operands (top 64) 1)) = some (1, 0, 0)) ∧
    (TooWide 64 (operands (beyond 64) 0) ∧ ended (exec .addc64 (operands (beyond 64) 0)) = some (10, 0, 0)) ∧
    (Within 128 (operands (top 128) 0) ∧ ended (exec .addc128 (operands (top 128) 0)) = some (0, 2 ^ 128 - 1, 0)) ∧
    (Within 128 (operands (top 128) 1) ∧ ended (exec .addc128 (operands (top 128) 1)) = some (1, 0, 0)) ∧
    (TooWide 128 (operands 0 (beyond 128)) ∧ ended (exec .addc128 (operands 0 (beyond 128))) = some (10, 0, 0)) ∧
    ended (exec .addc256 (operands (top 256) 0)) = some (0, 2 ^ 256 - 1, 0) ∧
    ended (exec .addc256 (operands (top 256) 1)) = some (1, 0, 0) := by
  decide

theorem witness_CheckedSubIsExactOrUnderflows :
    (Within 64 (operands (top 64) (top 64)) ∧
      ended (exec .sub64 (operands (top 64) (top 64))) = some (0, 0, 0)) ∧
    (Within 64 (operands 4 5) ∧ ended (exec .sub64 (operands 4 5)) = some (2, 0, 0)) ∧
    (TooWide 64 (operands (beyond 64) 0) ∧ ended (exec .sub64 (operands (beyond 64) 0)) = some (10, 0, 0)) ∧
    (Within 128 (operands (beyond 64) (beyond 64)) ∧
      ended (exec .sub128 (operands (beyond 64) (beyond 64))) = some (0, 0, 0)) ∧
    (Within 128 (operands (top 64) (beyond 64)) ∧
      ended (exec .sub128 (operands (top 64) (beyond 64))) = some (2, 0, 0)) ∧
    (TooWide 128 (operands 0 (beyond 128)) ∧ ended (exec .sub128 (operands 0 (beyond 128))) = some (10, 0, 0)) ∧
    ended (exec .sub256 (operands (beyond 192) (beyond 192))) = some (0, 0, 0) ∧
    ended (exec .sub256 (operands (top 192) (beyond 192))) = some (2, 0, 0) := by
  decide

theorem witness_WideningMultiplyIsExact :
    (Within 64 (operands (top 64) (top 64)) ∧
      ended (exec .mulw64 (operands (top 64) (top 64))) = some (0, 2 ^ 128 - 2 ^ 65 + 1, 0)) ∧
    (TooWide 64 (operands 0 (beyond 64)) ∧ ended (exec .mulw64 (operands 0 (beyond 64))) = some (10, 0, 0)) ∧
    (Within 128 (operands (top 128) (top 128)) ∧
      ended (exec .mulw128 (operands (top 128) (top 128))) = some (0, 2 ^ 256 - 2 ^ 129 + 1, 0)) ∧
    (TooWide 128 (operands (beyond 128) 0) ∧ ended (exec .mulw128 (operands (beyond 128) 0)) = some (10, 0, 0)) := by
  decide

theorem witness_CheckedMultiplyIsExactOrOverflows :
    (Within 64 (operands (top 64) 1) ∧ ended (exec .mulc64 (operands (top 64) 1)) = some (0, 2 ^ 64 - 1, 0)) ∧
    (Within 64 (operands (beyond 32) (beyond 32)) ∧
      ended (exec .mulc64 (operands (beyond 32) (beyond 32))) = some (1, 0, 0)) ∧
    (TooWide 64 (operands (beyond 64) 0) ∧ ended (exec .mulc64 (operands (beyond 64) 0)) = some (10, 0, 0)) ∧
    (Within 128 (operands (top 128) 1) ∧ ended (exec .mulc128 (operands (top 128) 1)) = some (0, 2 ^ 128 - 1, 0)) ∧
    (Within 128 (operands (beyond 64) (beyond 64)) ∧
      ended (exec .mulc128 (operands (beyond 64) (beyond 64))) = some (1, 0, 0)) ∧
    (TooWide 128 (operands 0 (beyond 128)) ∧ ended (exec .mulc128 (operands 0 (beyond 128))) = some (10, 0, 0)) ∧
    ended (exec .mulc256 (operands (top 256) 1)) = some (0, 2 ^ 256 - 1, 0) ∧
    ended (exec .mulc256 (operands (beyond 128) (beyond 128))) = some (1, 0, 0) := by
  decide +kernel

/-- One case serves the three comparison obligations: operands at the top of each width, and one bit beyond it. -/
theorem witness_comparisons :
    Within 64 (operands (top 64) (top 64)) ∧ TooWide 64 (operands 0 (beyond 64)) ∧
    Within 128 (operands (top 128) (top 128)) ∧ TooWide 128 (operands (beyond 128) 0) ∧
    ended (exec .eq64 (operands (top 64) (top 64))) = some (0, 1, 0) ∧
    ended (exec .gte128 (operands (beyond 128) 0)) = some (10, 0, 0) ∧
    ended (exec .max64 (operands 0 (beyond 64))) = some (10, 0, 0) ∧
    ended (exec .min256 (operands (top 256) 1)) = some (0, 1, 0) := by
  decide

theorem witness_DivisionCallRejectsOrQueries :
    encode .div64 = 0x20 ∧ (called 0x20 (top 64) 1).stage ≠ .query ∧
    waiting (step (called 0x20 (top 64) 1)) = true ∧
    ended (step (called 0x20 0 0)) = some (3, 0, 0) ∧
    ended (step (called 0x20 (beyond 64) 0)) = some (10, 0, 0) := by
  decide

theorem witness_DivisionAnswerIsVerified :
    ((3 : Bus).toNat < (answered 0x20 8 5 1 3).B.toNat ∧
      1 * (answered 0x20 8 5 1 3).B.toNat + 3 = (answered 0x20 8 5 1 3).A.toNat ∧
      ended (exec .div64 (answered 0x20 8 5 1 3)) = some (0, 1, 0)) ∧
    ((5 : Bus).toNat ≥ (answered 0x20 10 5 1 5).B.toNat ∧
      ended (exec .div64 (answered 0x20 10 5 1 5)) = some (4, 0, 0)) ∧
    ((4 : Bus).toNat < (answered 0x20 8 5 1 4).B.toNat ∧
      1 * (answered 0x20 8 5 1 4).B.toNat + 4 ≠ (answered 0x20 8 5 1 4).A.toNat ∧
      ended (exec .div64 (answered 0x20 8 5 1 4)) = some (5, 0, 0)) := by
  decide

theorem witness_SquareRootCallAlwaysQueries :
    encode .sqrt64 = 0x28 ∧ (called 0x28 (top 64) 0).stage ≠ .query ∧
    waiting (step (called 0x28 0 0)) = true ∧ waiting (step (called 0x28 (top 64) (top 256))) = true ∧
    ended (step (called 0x28 (beyond 64) 0)) = some (10, 0, 0) := by
  decide

theorem witness_SquareRootAnswerIsVerified :
    (2 * 2 ≤ (answered 0x28 4 0 2 0).A.toNat ∧ 3 * 3 > (answered 0x28 4 0 2 0).A.toNat ∧
      ended (exec .sqrt64 (answered 0x28 4 0 2 0)) = some (0, 2, 0)) ∧
    (3 * 3 > (answered 0x28 8 0 3 0).A.toNat ∧ ended (exec .sqrt64 (answered 0x28 8 0 3 0)) = some (6, 0, 0)) ∧
    (3 * 3 ≤ (answered 0x28 9 0 2 0).A.toNat ∧ ended (exec .sqrt64 (answered 0x28 9 0 2 0)) = some (7, 0, 0)) := by
  decide

theorem witness_EveryCallAgreesWithIntegerArithmetic :
    (called 0x99 (beyond 128) (beyond 128)).stage ≠ .query ∧ decode 0x99 = .ok .mulc256 ∧
    exactCall 254 256 (beyond 128).toNat (beyond 128).toNat .mulc = .fault 1 ∧
    exactCall 254 64 (top 64).toNat 1 .addc = .fault 1 ∧ exactCall 254 64 (top 64).toNat 0 .addc = .value (2 ^ 64 - 1) 0 ∧
    exactCall 254 64 5 0 .div = .fault 3 ∧ exactCall 254 64 5 1 .div = .query := by
  decide

theorem witness_EveryAnswerAgreesWithIntegerArithmetic :
    (answered 0xA8 (top 256) 0 (top 128) 0).stage = .query ∧ decode 0xA8 = .ok .sqrt256 ∧
    Instr.sqrt256.op.queriesWitness = true ∧
    exactAnswer (top 256).toNat 0 (top 128).toNat 0 .sqrt = .value (2 ^ 128 - 1) 0 ∧
    exactAnswer 8 5 1 5 .div = .fault 4 ∧ exactAnswer 8 5 1 4 .div = .fault 5 := by
  decide

theorem witness_DivisionOutcomeIsTrueOrAFault :
    (called 0x22 17 5).stage ≠ .query ∧ (17 : Bus).toNat < 2 ^ Width.bits .w64 ∧
    (5 : Bus).toNat < 2 ^ Width.bits .w64 ∧ (5 : Bus).toNat ≠ 0 ∧
    ended (Host.Core.run Sys2Proof.core 2 { State.reset with inputs := [.call 0x22 17 5, .answer 3 2] }) =
      some (0, 3, 2) := by
  decide

theorem witness_SquareRootOutcomeIsTheFloorOrAFault :
    (called 0x28 (top 64) 0).stage ≠ .query ∧ (top 64).toNat < 2 ^ Width.bits .w64 ∧
    ended (Host.Core.run Sys2Proof.core 2
      { State.reset with inputs := [.call 0x28 (top 64) 0, .answer (top 32) 0] }) = some (0, 2 ^ 32 - 1, 0) := by
  decide

theorem witness_StaleAnswersNeverGiveAWrongValue :
    (answered 0x22 17 5 3 2).stage = .query ∧ decode (answered 0x22 17 5 3 2).CMD = .ok .divrem64 ∧
    ended (step (answered 0x22 17 5 3 2)) = some (0, 3, 2) ∧ Instr.divrem64.op.dividesByWitness = true ∧
    ended (step (answered 0x28 4 0 2 9)) = some (0, 2, 0) ∧ Instr.sqrt64.op = .sqrt := by
  decide

theorem witness_AdditionCommutesAndSubtractionInverts :
    ended (exec .addc64 (operands (top 64) 0)) = some (0, 2 ^ 64 - 1, 0) ∧
    ended (exec .addc64 (operands 0 (top 64))) = some (0, 2 ^ 64 - 1, 0) ∧
    ended (exec .sub64 { after (exec .addc64 (operands (top 64) 0)) with A := top 64 }) = some (0, 2 ^ 64 - 1, 0) := by
  decide

theorem witness_DivisionInvertsMultiplication :
    ended (exec .mulc64 (operands (top 64) 1)) = some (0, 2 ^ 64 - 1, 0) ∧ (operands (top 64) 1).B.toNat ≠ 0 := by
  decide

theorem witness_ComparisonsOrderTheOperandsTotally :
    Within 64 (operands (top 64) 0) ∧ instrOf .lt .w64 = some .lt64 ∧ instrOf .eq .w64 = some .eq64 ∧
    instrOf .gt .w64 = some .gt64 ∧ instrOf .lte .w64 = some .lte64 ∧ instrOf .gte .w64 = some .gte64 ∧
    instrOf .min .w64 = some .min64 ∧ instrOf .max .w64 = some .max64 ∧
    (after (exec .gt64 (operands (top 64) 0))).RES0 = 1 ∧ (after (exec .lt64 (operands 0 (top 64)))).RES0 = 1 ∧
    (after (exec .eq64 (operands (top 64) (top 64)))).RES0 = 1 := by
  decide

end Sys2Proof.Tests
end

section
/-! PROOFS. The datapath over any number of limbs is exact: the adder and subtractor with their
chains (R70 to R73), the comparator (R140) and the cascaded multipliers (R90 to R92), each against the integers its
limbs denote (R60, R61). -/

namespace Sys2Proof.Machine

/-- Joining two vectors puts the first one above the second (R22, R31). -/
theorem append_toNat {m n : Nat} (x : BitVec m) (y : BitVec n) :
    (x ++ y).toNat = x.toNat * 2 ^ n + y.toNat := by
  rw [BitVec.toNat_append, ← Nat.shiftLeft_add_eq_or_of_lt y.isLt, Nat.shiftLeft_eq]

/-- The number below `2^(64 (n+1))` is its digit `n` above the number below `2^(64 n)` (R60). -/
theorem mod_limbs_succ {w : Nat} (v : BitVec w) (n : Nat) :
    v.toNat % 2 ^ (64 * (n + 1)) = v.toNat % 2 ^ (64 * n) + 2 ^ (64 * n) * (limb v n).toNat := by
  rw [limb_toNat, Nat.mul_add_one, pow_add, Nat.mod_mul]

/-- The `n` lowest limbs denote the value modulo `2^(64 n)` (R60, R61). -/
theorem limbsValue_toWide {w : Nat} (n : Nat) (v : BitVec w) :
    limbsValue (toWide n v) = v.toNat % 2 ^ (64 * n) := by
  induction n with
  | zero => simp [Nat.mod_one]
  | succ n ih => rw [toWide_succ, limbsValue_append, ih, toWide_length, mod_limbs_succ]; simp

theorem limbsValue_toWide_all (n : Nat) (v : BitVec (64 * n)) : limbsValue (toWide n v) = v.toNat := by
  rw [limbsValue_toWide, Nat.mod_eq_of_lt v.isLt]

/-- Joining `n` limbs into `64 n` bits loses nothing (R61). -/
theorem fromWide_toNat {n : Nat} {ls : List Limb} (h : ls.length = n) :
    (fromWide (64 * n) ls).toNat = limbsValue ls := by
  subst h
  exact BitVec.toNat_ofNat .. |>.trans (Nat.mod_eq_of_lt (limbsValue_lt ls))

/-! ### Adder and subtractor -/

/-- R70. -/
theorem adc64_exact (x y : Limb) (c : BitVec 1) :
    (adc64 x y c).1.toNat + 2 ^ 64 * (adc64 x y c).2.toNat = x.toNat + y.toNat + c.toNat := by
  simp only [adc64, BitVec.toNat_ofNat]
  omega

/-- R71, with the borrow moved to the other side. -/
theorem sbb64_exact (x y : Limb) (b : BitVec 1) :
    (sbb64 x y b).1.toNat + y.toNat + b.toNat = x.toNat + 2 ^ 64 * (sbb64 x y b).2.toNat := by
  simp only [sbb64, BitVec.toNat_ofInt]
  split <;> simp <;> omega

/-- R72: the carry out and the sum limbs hold the exact sum. -/
theorem carryChain_exact {xs ys : List Limb} (h : xs.length = ys.length) (c : BitVec 1) :
    limbsValue (carryChain xs ys c).1 + 2 ^ (64 * xs.length) * (carryChain xs ys c).2.toNat =
      limbsValue xs + limbsValue ys + c.toNat := by
  induction xs generalizing ys c with
  | nil =>
    cases ys with
    | nil => simp [carryChain]
    | cons y ys => simp at h
  | cons x xs ih =>
    cases ys with
    | nil => simp at h
    | cons y ys =>
      have digit := adc64_exact x y c
      have rest := ih (Nat.succ.inj h) (adc64 x y c).2
      simp only [carryChain, limbsValue_cons, List.length_cons, Nat.mul_add_one, pow_add] at *
      linear_combination digit + 2 ^ 64 * rest

/-- R73: the difference limbs and the subtrahend hold the minuend and the borrow out. -/
theorem borrowChain_exact {xs ys : List Limb} (h : xs.length = ys.length) (b : BitVec 1) :
    limbsValue (borrowChain xs ys b).1 + limbsValue ys + b.toNat =
      limbsValue xs + 2 ^ (64 * xs.length) * (borrowChain xs ys b).2.toNat := by
  induction xs generalizing ys b with
  | nil =>
    cases ys with
    | nil => simp [borrowChain]
    | cons y ys => simp at h
  | cons x xs ih =>
    cases ys with
    | nil => simp at h
    | cons y ys =>
      have digit := sbb64_exact x y b
      have rest := ih (Nat.succ.inj h) (sbb64 x y b).2
      simp only [borrowChain, limbsValue_cons, List.length_cons, Nat.mul_add_one, pow_add] at *
      linear_combination digit + 2 ^ 64 * rest

/-- R72 on values of `n` limbs. -/
theorem addN_exact (n : Nat) (a b : BitVec (64 * n)) :
    (addN n a b).1.toNat + 2 ^ (64 * n) * (addN n a b).2.toNat = a.toNat + b.toNat := by
  have len : (carryChain (toWide n a) (toWide n b) 0).1.length = n := by simp [carryChain_length]
  have chain := carryChain_exact (xs := toWide n a) (ys := toWide n b) (by simp) 0
  rw [limbsValue_toWide_all, limbsValue_toWide_all, toWide_length, ← fromWide_toNat len] at chain
  exact chain

/-- R73 on values of `n` limbs. -/
theorem subN_exact (n : Nat) (a b : BitVec (64 * n)) :
    (subN n a b).1.toNat + b.toNat = a.toNat + 2 ^ (64 * n) * (subN n a b).2.toNat := by
  have len : (borrowChain (toWide n a) (toWide n b) 0).1.length = n := by simp [borrowChain_length]
  have chain := borrowChain_exact (xs := toWide n a) (ys := toWide n b) (by simp) 0
  rw [limbsValue_toWide_all, limbsValue_toWide_all, toWide_length, ← fromWide_toNat len] at chain
  exact chain

/-! ### Comparator -/

/-- R140 on the `n` lowest limbs: a higher digit decides, whatever the digits below it. -/
theorem ltN_low (n : Nat) {w : Nat} (a b : BitVec w) :
    ltN n a b = decide (a.toNat % 2 ^ (64 * n) < b.toNat % 2 ^ (64 * n)) := by
  induction n with
  | zero => simp [ltN, Nat.mod_one]
  | succ n ih =>
    have ha := Nat.mod_lt a.toNat (Nat.two_pow_pos (64 * n))
    have hb := Nat.mod_lt b.toNat (Nat.two_pow_pos (64 * n))
    rw [ltN, ih, mod_limbs_succ, mod_limbs_succ]
    generalize 2 ^ (64 * n) = p at *
    rcases Nat.lt_trichotomy (limb a n).toNat (limb b n).toNat with h | h | h
    · have := Nat.mul_le_mul_left p (Nat.succ_le_of_lt h)
      simp only [if_pos h, Nat.mul_succ] at *
      symm; rw [decide_eq_true_eq]; omega
    · simp [h]
    · have := Nat.mul_le_mul_left p (Nat.succ_le_of_lt h)
      simp only [if_neg (Nat.lt_asymm h), gt_iff_lt, if_pos h, Nat.mul_succ] at *
      symm; rw [decide_eq_false_iff_not]; omega

/-- R140 on the `n` lowest limbs: every digit agrees. -/
theorem eqN_low (n : Nat) {w : Nat} (a b : BitVec w) :
    eqN n a b = decide (a.toNat % 2 ^ (64 * n) = b.toNat % 2 ^ (64 * n)) := by
  induction n with
  | zero => simp [eqN, Nat.mod_one]
  | succ n ih =>
    have ha := Nat.mod_lt a.toNat (Nat.two_pow_pos (64 * n))
    have hb := Nat.mod_lt b.toNat (Nat.two_pow_pos (64 * n))
    rw [eqN, ih, ← Bool.decide_and, decide_eq_decide, mod_limbs_succ, mod_limbs_succ, ← BitVec.toNat_inj]
    generalize 2 ^ (64 * n) = p at *
    constructor
    · rintro ⟨h, l⟩
      rw [h, l]
    · intro h
      have hd := congrArg (· / p) h
      have hm := congrArg (· % p) h
      simp only [Nat.add_mul_mod_self_left, Nat.mod_mod, Nat.add_mul_div_left _ _ (by omega : 0 < p),
        Nat.div_eq_of_lt ha, Nat.div_eq_of_lt hb] at hd hm
      omega

/-- R140: the order of the integers. -/
theorem ltN_eq (n : Nat) (a b : BitVec (64 * n)) : ltN n a b = decide (a.toNat < b.toNat) := by
  rw [ltN_low, Nat.mod_eq_of_lt a.isLt, Nat.mod_eq_of_lt b.isLt]

/-- R140: equality of the integers. -/
theorem eqN_eq (n : Nat) (a b : BitVec (64 * n)) : eqN n a b = decide (a.toNat = b.toNat) := by
  rw [eqN_low, Nat.mod_eq_of_lt a.isLt, Nat.mod_eq_of_lt b.isLt]

/-! ### Multiplier -/

/-- The two halves that `m` gives for two digits hold their exact product. -/
def ExactHalves {h : Nat} (m : BitVec h → BitVec h → BitVec h × BitVec h) : Prop :=
  ∀ x y, (m x y).1.toNat + 2 ^ h * (m x y).2.toNat = x.toNat * y.toNat

/-- The integer that four digits of a product denote, the highest first. -/
def digitsValue {h : Nat} (r : BitVec h × BitVec h × BitVec h × BitVec h) : Nat :=
  ((r.1.toNat * 2 ^ h + r.2.1.toNat) * 2 ^ h + r.2.2.1.toNat) * 2 ^ h + r.2.2.2.toNat

/-- Four places that denote less than the fourth power of the base have a digit in the highest place. -/
theorem top_digit_lt {B c3 c2 c1 c0 : Nat} (h : ((c3 * B + c2) * B + c1) * B + c0 < B * B * (B * B)) : c3 < B := by
  by_contra large
  have excess : B * (B * B * B) ≤ c3 * (B * B * B) := Nat.mul_le_mul_right _ (Nat.not_lt.1 large)
  have places : c3 * (B * B * B) ≤ ((c3 * B + c2) * B + c1) * B + c0 :=
    Nat.le.intro (k := c2 * (B * B) + c1 * B + c0) (by ring)
  linarith

/-- R91: the column sums keep every carry, and the highest column does not exceed a digit. -/
theorem schoolbook_exact {h : Nat} {m : BitVec h → BitVec h → BitVec h × BitVec h} (hm : ExactHalves m)
    (a1 a0 b1 b0 : BitVec h) :
    digitsValue (schoolbook m a1 a0 b1 b0) =
      (a1.toNat * 2 ^ h + a0.toNat) * (b1.toNat * 2 ^ h + b0.toNat) := by
  have hA := (a1 ++ a0).isLt
  have hB := (b1 ++ b0).isLt
  rw [append_toNat, pow_add] at hA hB
  simp only [digitsValue, schoolbook, BitVec.toNat_ofNat]
  generalize hc1 : (m a0 b0).2.toNat + (m a0 b1).1.toNat + (m a1 b0).1.toNat = col1
  generalize hc2 : (m a0 b1).2.toNat + (m a1 b0).2.toNat + (m a1 b1).1.toNat + col1 / 2 ^ h = col2
  generalize hc3 : (m a1 b1).2.toNat + col2 / 2 ^ h = col3
  have whole : ((col3 * 2 ^ h + col2 % 2 ^ h) * 2 ^ h + col1 % 2 ^ h) * 2 ^ h + (m a0 b0).1.toNat =
      (a1.toNat * 2 ^ h + a0.toNat) * (b1.toNat * 2 ^ h + b0.toNat) := by
    have e00 := hm a0 b0
    have e01 := hm a0 b1
    have e10 := hm a1 b0
    have e11 := hm a1 b1
    have k1 := Nat.mod_add_div col1 (2 ^ h)
    have k2 := Nat.mod_add_div col2 (2 ^ h)
    generalize 2 ^ h = B at *
    linear_combination e00 + B * (e01 + e10 + k1 + hc1.symm) + B ^ 2 * (e11 + k2 + hc2.symm) + B ^ 3 * hc3.symm
  have top : col3 < 2 ^ h := top_digit_lt (whole.trans_lt (Nat.mul_lt_mul'' hA hB))
  rw [Nat.mod_eq_of_lt top, whole]

/-- R90. -/
theorem mul64_exact : ExactHalves mul64 := by
  intro x y
  have hx := x.isLt
  have hy := y.isLt
  have : x.toNat * y.toNat < 2 ^ 64 * 2 ^ 64 := Nat.mul_lt_mul'' hx hy
  simp only [mul64, BitVec.toNat_ofNat]
  omega

/-- R92 at width 64. -/
theorem mulwide64_exact (a b : BitVec 64) : (mulwide64 a b).toNat = a.toNat * b.toNat := by
  rw [mulwide64, append_toNat, ← mul64_exact a b]
  ring

/-- A 128-bit value is its two limbs (R22). -/
theorem limb_one_limb_zero (v : BitVec 128) : (limb v 1).toNat * 2 ^ 64 + (limb v 0).toNat = v.toNat := by
  have := v.isLt
  rw [limb_toNat, limb_toNat]
  omega

/-- A bus is its two halves (R22). -/
theorem high_half_low_half (v : BitVec 256) :
    (v.extractLsb' 128 128).toNat * 2 ^ 128 + (v.extractLsb' 0 128).toNat = v.toNat := by
  have := v.isLt
  simp only [BitVec.extractLsb'_toNat, Nat.shiftRight_eq_div_pow]
  omega

/-- R91 (R92 at width 128). -/
theorem mulwide128_exact (a b : BitVec 128) : (mulwide128 a b).toNat = a.toNat * b.toNat := by
  have digits := schoolbook_exact mul64_exact (limb a 1) (limb a 0) (limb b 1) (limb b 0)
  rw [limb_one_limb_zero, limb_one_limb_zero] at digits
  simp only [mulwide128, append_toNat, ← digits, digitsValue]

/-- The split of R92 loses nothing. -/
theorem mulHalf_exact : ExactHalves mulHalf := by
  intro x y
  have halves := high_half_low_half (mulwide128 x y)
  rw [mulwide128_exact] at halves
  simp only [mulHalf]
  omega

/-- R92 at width 256. -/
theorem mulwide256_exact (a b : BitVec 256) : (mulwide256 a b).toNat = a.toNat * b.toNat := by
  have digits := schoolbook_exact mulHalf_exact (a.extractLsb' 128 128) (a.extractLsb' 0 128)
    (b.extractLsb' 128 128) (b.extractLsb' 0 128)
  rw [high_half_low_half, high_half_low_half] at digits
  simp only [mulwide256, append_toNat, ← digits, digitsValue]

/-- R92 at every width. -/
theorem mulwide_exact : (w : Width) → (a b : BitVec w.bits) → (mulwide w a b).toNat = a.toNat * b.toNat
  | .w64 => mulwide64_exact
  | .w128 => mulwide128_exact
  | .w256 => mulwide256_exact

end Sys2Proof.Machine
end

section
/-! PROOFS. Every command concludes as unbounded integer arithmetic says (R7): `Concludes` ties a step to a verdict of
`exactCall` or `exactAnswer`, each family of commands is shown to conclude once for all widths, and
`exec_computes_or_verifies` collects the 56 commands. -/

namespace Sys2Proof.Machine

/-! ### The datapath at the three widths -/

theorem addN_width : (w : Width) → (a b : BitVec w.bits) →
    (addN w.limbs a b).1.toNat + 2 ^ w.bits * (addN w.limbs a b).2.toNat = a.toNat + b.toNat
  | .w64 => addN_exact 1
  | .w128 => addN_exact 2
  | .w256 => addN_exact 4

theorem subN_width : (w : Width) → (a b : BitVec w.bits) →
    (subN w.limbs a b).1.toNat + b.toNat = a.toNat + 2 ^ w.bits * (subN w.limbs a b).2.toNat
  | .w64 => subN_exact 1
  | .w128 => subN_exact 2
  | .w256 => subN_exact 4

theorem ltN_width : (w : Width) → (a b : BitVec w.bits) → ltN w.limbs a b = decide (a.toNat < b.toNat)
  | .w64 => ltN_eq 1
  | .w128 => ltN_eq 2
  | .w256 => ltN_eq 4

theorem eqN_width : (w : Width) → (a b : BitVec w.bits) → eqN w.limbs a b = decide (a.toNat = b.toNat)
  | .w64 => eqN_eq 1
  | .w128 => eqN_eq 2
  | .w256 => eqN_eq 4

/-- The adder carries out exactly when the sum exceeds the width. -/
theorem addN_carry (w : Width) (a b : BitVec w.bits) :
    (addN w.limbs a b).2 = 1 ↔ ¬ a.toNat + b.toNat < 2 ^ w.bits := by
  have sum := addN_width w a b
  have := (addN w.limbs a b).1.isLt
  rcases BitVec.eq_zero_or_eq_one (addN w.limbs a b).2 with c | c <;> simp [c] at sum ⊢ <;> omega

/-- The subtractor borrows exactly when the minuend is the smaller. -/
theorem subN_borrow (w : Width) (a b : BitVec w.bits) :
    (subN w.limbs a b).2 = 1 ↔ ¬ b.toNat ≤ a.toNat := by
  have difference := subN_width w a b
  have := (subN w.limbs a b).1.isLt
  rcases BitVec.eq_zero_or_eq_one (subN w.limbs a b).2 with c | c <;> simp [c] at difference ⊢ <;> omega

theorem width_bits_le (w : Width) : w.bits ≤ 256 := by cases w <;> decide

theorem halfBits_eq_half : (w : Width) → w.halfBits = w.bits / 2
  | .w64 | .w128 | .w256 => rfl

/-- A value of a command's width keeps its integer on the result bus (R52). -/
theorem onBus_toNat {w : Width} (v : BitVec w.bits) : (v.setWidth 256).toNat = v.toNat :=
  BitVec.toNat_setWidth_of_le (width_bits_le w)

/-! ### How a step concludes -/

/-- `Concludes s out v`: from `s` the step ends by the primitive of R9 that the verdict `v` names. It says of the
whole next state what `EndsAs` says, and of a fault also that the results are zero (R193). -/
inductive Concludes (s : State) : Out → Verdict → Prop
  | value (r0 r1 : Bus) : Concludes s (.next (s.done r0 r1)) (.value r0.toNat r1.toNat)
  | fault (k : FaultKind) : Concludes s (.next (s.raise k)) (.fault k.code.toNat)
  | query : Concludes s (.next s.query) .query

theorem Concludes.value_of {s : State} {r0 r1 : Bus} {n0 n1 : Nat} (h0 : r0.toNat = n0) (h1 : r1.toNat = n1) :
    Concludes s (.next (s.done r0 r1)) (.value n0 n1) := by
  subst h0 h1
  exact .value r0 r1

theorem Concludes.endsAs {s : State} {out : Out} {v : Verdict} (h : Concludes s out v) : EndsAs s out v := by
  cases h with
  | value r0 r1 =>
    refine ⟨?_, r0.isLt, r1.isLt⟩
    rw [BitVec.ofNat_toNat, BitVec.ofNat_toNat, BitVec.setWidth_eq, BitVec.setWidth_eq]
    rfl
  | fault k =>
    refine ⟨k.code.isLt, 0, 0, ?_⟩
    rw [BitVec.ofNat_toNat, BitVec.setWidth_eq]
    rfl
  | query => rfl

/-! ### Operands against the integers -/

/-- `exactCall` for a command and the operands that `s` holds. -/
def callVerdict (i : Instr) (s : State) : Verdict :=
  exactCall s.cfg.exportBits i.width.bits s.A.toNat s.B.toNat i.op

/-- The first test of `exactCall`: an operand that the operation uses is too wide (R51). -/
abbrev OperandTooWide (W a b : Nat) (op : Op) : Prop :=
  (op.usesA = true ∧ 2 ^ W ≤ a) ∨ (op.usesB = true ∧ 2 ^ W ≤ b)

theorem not_operandTooWide {W : Nat} (a b : BitVec W) (op : Op) : ¬ OperandTooWide W a.toNat b.toNat op := by
  have := a.isLt
  have := b.isLt
  omega

/-- Only `a` is checked where `b` is not used (R51, D13). -/
theorem not_operandTooWide_of_usesB {W : Nat} (a : BitVec W) (b : Nat) {op : Op} (hb : op.usesB = false) :
    ¬ OperandTooWide W a.toNat b op := by
  have := a.isLt
  rintro (⟨-, h⟩ | ⟨h, -⟩)
  · omega
  · simp [hb] at h

theorem exactCall_of_operandTooWide {E W a b : Nat} {op : Op} (h : OperandTooWide W a b op) :
    exactCall E W a b op = .fault 10 := if_pos h

/-- The range check of `a` and `b` is the one of `exactCall`, and what follows it sees values of the width. -/
theorem withOperands_concludes {w : Width} {s : State} {k : BitVec w.bits → BitVec w.bits → Out} {E : Nat} {op : Op}
    (hua : op.usesA = true) (hub : op.usesB = true)
    (hk : ∀ a b : BitVec w.bits, a.toNat = s.A.toNat → b.toNat = s.B.toNat →
      Concludes s (k a b) (exactCall E w.bits a.toNat b.toNat op)) :
    Concludes s (withOperands w s k) (exactCall E w.bits s.A.toNat s.B.toNat op) := by
  by_cases hr : s.A.toNat < 2 ^ w.bits ∧ s.B.toNat < 2 ^ w.bits
  · obtain ⟨hA, hB⟩ := hr
    rw [withOperands_of_lt hA hB]
    have := hk _ _ (setWidth_toNat_of_lt hA) (setWidth_toNat_of_lt hB)
    rwa [setWidth_toNat_of_lt hA, setWidth_toNat_of_lt hB] at this
  · have wide : 2 ^ w.bits ≤ s.A.toNat ∨ 2 ^ w.bits ≤ s.B.toNat := by omega
    rw [withOperands_of_ge wide, exactCall_of_operandTooWide (wide.imp (.intro hua) (.intro hub))]
    exact .fault .operandRange

/-- The range check of `a` alone is the one of `exactCall` where `b` is not used. -/
theorem withOperandA_concludes {w : Width} {s : State} {k : BitVec w.bits → Out} {E : Nat} {op : Op}
    (hua : op.usesA = true)
    (hk : ∀ a : BitVec w.bits, Concludes s (k a) (exactCall E w.bits a.toNat s.B.toNat op)) :
    Concludes s (withOperandA w s k) (exactCall E w.bits s.A.toNat s.B.toNat op) := by
  by_cases hA : s.A.toNat < 2 ^ w.bits
  · rw [withOperandA_of_lt hA]
    simpa only [setWidth_toNat_of_lt hA] using hk (s.A.setWidth w.bits)
  · have wide := Nat.not_lt.1 hA
    rw [withOperandA_of_ge wide, exactCall_of_operandTooWide (.inl ⟨hua, wide⟩)]
    exact .fault .operandRange

/-- The operations of the division family use both operands (R51). -/
theorem uses_of_dividesByWitness {op : Op} (hd : op.dividesByWitness = true) :
    op.usesA = true ∧ op.usesB = true := by
  cases op with
  | div | rem | divrem | ismul => exact ⟨rfl, rfl⟩
  | _ => cases hd

/-- R105 as `exactCall` has it, for operands of the width. -/
theorem exactCall_of_dividesByWitness {E W : Nat} {a b : BitVec W} {op : Op} (hd : op.dividesByWitness = true) :
    exactCall E W a.toNat b.toNat op = if b.toNat = 0 then .fault 3 else .query := by
  rw [exactCall.eq_def, if_neg (not_operandTooWide a b _)]
  cases op with
  | div | rem | divrem | ismul => rfl
  | _ => cases hd

/-! ### The families -/

section Families

variable (w : Width) (s : State) (E : Nat)

/-- Width 256 has no widening addition: the sum needs a bit above the width (R83). -/
theorem addWidening_concludes (hw : w ≠ .w256) :
    Concludes s (addWidening w s) (exactCall E w.bits s.A.toNat s.B.toNat .addw) := by
  refine withOperands_concludes rfl rfl fun a b _ _ => ?_
  rw [exactCall, if_neg (not_operandTooWide a b _)]
  have sum := addN_width w a b
  have wide : 1 + w.bits ≤ 256 := by
    cases w with
    | w64 | w128 => decide
    | w256 => contradiction
  refine .value_of ?_ rfl
  rw [BitVec.toNat_setWidth_of_le wide, append_toNat]
  linear_combination sum

theorem addChecked_concludes :
    Concludes s (addChecked w s) (exactCall E w.bits s.A.toNat s.B.toNat .addc) := by
  refine withOperands_concludes rfl rfl fun a b _ _ => ?_
  rw [exactCall, if_neg (not_operandTooWide a b _)]
  by_cases fit : a.toNat + b.toNat < 2 ^ w.bits
  · have carry : (addN w.limbs a b).2 ≠ 1 := mt (addN_carry w a b).1 (not_not.2 fit)
    simp only [if_neg carry, if_pos fit]
    refine .value_of ?_ rfl
    rw [onBus_toNat]
    simpa [(BitVec.eq_zero_or_eq_one _).resolve_right carry] using addN_width w a b
  · simp only [if_pos ((addN_carry w a b).2 fit), if_neg fit]
    exact .fault .overflow

theorem subChecked_concludes :
    Concludes s (subChecked w s) (exactCall E w.bits s.A.toNat s.B.toNat .sub) := by
  refine withOperands_concludes rfl rfl fun a b _ _ => ?_
  rw [exactCall, if_neg (not_operandTooWide a b _)]
  by_cases fit : b.toNat ≤ a.toNat
  · have borrow : (subN w.limbs a b).2 ≠ 1 := mt (subN_borrow w a b).1 (not_not.2 fit)
    simp only [if_neg borrow, if_pos fit]
    refine .value_of ?_ rfl
    have difference : (subN w.limbs a b).1.toNat + b.toNat = a.toNat := by
      simpa [(BitVec.eq_zero_or_eq_one _).resolve_right borrow] using subN_width w a b
    rw [onBus_toNat]
    omega
  · simp only [if_pos ((subN_borrow w a b).2 fit), if_neg fit]
    exact .fault .underflow

/-- Width 256 has no widening product: the bus does not hold it (R99). -/
theorem mulWidening_concludes (hw : w ≠ .w256) :
    Concludes s (mulWidening w s) (exactCall E w.bits s.A.toNat s.B.toNat .mulw) := by
  refine withOperands_concludes rfl rfl fun a b _ _ => ?_
  rw [exactCall, if_neg (not_operandTooWide a b _)]
  have wide : w.wideBits ≤ 256 := by
    cases w with
    | w64 | w128 => decide
    | w256 => contradiction
  refine .value_of ?_ rfl
  rw [BitVec.toNat_setWidth_of_le wide, mulwide_exact]

theorem mulChecked_concludes :
    Concludes s (mulChecked w s) (exactCall E w.bits s.A.toNat s.B.toNat .mulc) := by
  refine withOperands_concludes rfl rfl fun a b _ _ => ?_
  rw [exactCall, if_neg (not_operandTooWide a b _)]
  have product := mulwide_exact w a b
  have upper : mulwide w a b >>> w.bits = 0 ↔ a.toNat * b.toNat < 2 ^ w.bits := by
    rw [← BitVec.toNat_inj, BitVec.toNat_ushiftRight, product, Nat.shiftRight_eq_div_pow]
    simp [Nat.div_eq_zero_iff]
  by_cases fit : a.toNat * b.toNat < 2 ^ w.bits
  · simp only [if_pos (upper.2 fit), if_pos fit]
    refine .value_of ?_ rfl
    rw [onBus_toNat, BitVec.toNat_setWidth, product, Nat.mod_eq_of_lt fit]
  · simp only [if_neg (mt upper.1 fit), if_neg fit]
    exact .fault .overflow

/-- A comparison whose test decides the integer relation that the verdict names. -/
theorem compareBy_concludes {f : BitVec w.bits → BitVec w.bits → Bool} {op : Op}
    (hua : op.usesA = true) (hub : op.usesB = true)
    (hf : ∀ a b : BitVec w.bits, exactCall E w.bits a.toNat b.toNat op = .value (bit (f a b)) 0) :
    Concludes s (compareBy w f s) (exactCall E w.bits s.A.toNat s.B.toNat op) := by
  refine withOperands_concludes hua hub fun a b _ _ => ?_
  rw [hf]
  refine .value_of ?_ rfl
  cases f a b <;> rfl

theorem eq_concludes :
    Concludes s (compareBy w (eqN w.limbs) s) (exactCall E w.bits s.A.toNat s.B.toNat .eq) :=
  compareBy_concludes w s E rfl rfl fun a b => by
    rw [exactCall, if_neg (not_operandTooWide a b _), eqN_width]
    rfl

theorem lt_concludes :
    Concludes s (compareBy w (ltN w.limbs) s) (exactCall E w.bits s.A.toNat s.B.toNat .lt) :=
  compareBy_concludes w s E rfl rfl fun a b => by
    rw [exactCall, if_neg (not_operandTooWide a b _), ltN_width]

theorem lte_concludes :
    Concludes s (compareBy w (fun a b => !ltN w.limbs b a) s) (exactCall E w.bits s.A.toNat s.B.toNat .lte) :=
  compareBy_concludes w s E rfl rfl fun a b => by
    rw [exactCall, if_neg (not_operandTooWide a b _), ltN_width, ← decide_not]
    simp only [Nat.not_lt]

theorem gt_concludes :
    Concludes s (compareBy w (fun a b => ltN w.limbs b a) s) (exactCall E w.bits s.A.toNat s.B.toNat .gt) :=
  compareBy_concludes w s E rfl rfl fun a b => by
    rw [exactCall, if_neg (not_operandTooWide a b _), ltN_width]

theorem gte_concludes :
    Concludes s (compareBy w (fun a b => !ltN w.limbs a b) s) (exactCall E w.bits s.A.toNat s.B.toNat .gte) :=
  compareBy_concludes w s E rfl rfl fun a b => by
    rw [exactCall, if_neg (not_operandTooWide a b _), ltN_width, ← decide_not]
    simp only [Nat.not_lt]

theorem min_concludes :
    Concludes s (chooseBy w (fun a b => ltN w.limbs b a) s) (exactCall E w.bits s.A.toNat s.B.toNat .min) := by
  refine withOperands_concludes rfl rfl fun a b _ _ => ?_
  rw [exactCall, if_neg (not_operandTooWide a b _)]
  refine .value_of ?_ rfl
  simp only [onBus_toNat, ltN_width]
  by_cases less : b.toNat < a.toNat
  · simp [less, Nat.min_eq_right less.le]
  · simp [less, Nat.min_eq_left (Nat.not_lt.1 less)]

theorem max_concludes :
    Concludes s (chooseBy w (ltN w.limbs) s) (exactCall E w.bits s.A.toNat s.B.toNat .max) := by
  refine withOperands_concludes rfl rfl fun a b _ _ => ?_
  rw [exactCall, if_neg (not_operandTooWide a b _)]
  refine .value_of ?_ rfl
  simp only [onBus_toNat, ltN_width]
  by_cases less : a.toNat < b.toNat
  · simp [less, Nat.max_eq_right less.le]
  · simp [less, Nat.max_eq_left (Nat.not_lt.1 less)]

/-- A conversion whose limit is the one the verdict names. -/
theorem convertTo_concludes {k : Nat} {op : Op} (hua : op.usesA = true)
    (hk : ∀ a : BitVec w.bits, exactCall E w.bits a.toNat s.B.toNat op =
      if a.toNat < 2 ^ k then .value a.toNat 0 else .fault 8) :
    Concludes s (convertTo w k s) (exactCall E w.bits s.A.toNat s.B.toNat op) := by
  refine withOperandA_concludes hua fun a => ?_
  rw [hk]
  simp only [fits_iff, onBus_toNat]
  split
  · exact .value_of (onBus_toNat a) rfl
  · exact .fault .rangeExceeded

theorem exportTo_concludes :
    Concludes s (convertTo w E s) (exactCall E w.bits s.A.toNat s.B.toNat .exportTo) :=
  convertTo_concludes w s E rfl fun a => by
    rw [exactCall, if_neg (not_operandTooWide_of_usesB a _ rfl)]

theorem narrow_concludes :
    Concludes s (convertTo w w.halfBits s) (exactCall E w.bits s.A.toNat s.B.toNat .narrow) :=
  convertTo_concludes w s E rfl fun a => by
    rw [exactCall, if_neg (not_operandTooWide_of_usesB a _ rfl), halfBits_eq_half]

/-- The constants examine no operand (R51, R170). -/
theorem not_operandTooWide_of_unused {W a b : Nat} {op : Op} (ha : op.usesA = false) (hb : op.usesB = false) :
    ¬ OperandTooWide W a b op := by
  simp [OperandTooWide, ha, hb]

theorem zero_concludes :
    Concludes s (.next (s.done 0 0)) (exactCall E w.bits s.A.toNat s.B.toNat .zero) := by
  rw [exactCall, if_neg (not_operandTooWide_of_unused rfl rfl)]
  exact .value 0 0

theorem modulus_concludes :
    Concludes s (.next (s.done (modulus w) 0)) (exactCall E w.bits s.A.toNat s.B.toNat .modulus) := by
  rw [exactCall, if_neg (not_operandTooWide_of_unused rfl rfl), ← halfBits_eq_half]
  have small : w.halfBits < 256 := by cases w <;> decide
  exact .value_of (BitVec.toNat_ofNat .. |>.trans (Nat.mod_eq_of_lt (Nat.pow_lt_pow_right (by decide) small))) rfl

/-- `div_start` (R105) is the same for the four operations of the division family. -/
theorem divStart_concludes {op : Op} (hd : op.dividesByWitness = true) :
    Concludes s (divStart w s) (exactCall E w.bits s.A.toNat s.B.toNat op) := by
  obtain ⟨hua, hub⟩ := uses_of_dividesByWitness hd
  refine withOperands_concludes hua hub fun a b _ _ => ?_
  rw [exactCall_of_dividesByWitness hd]
  split
  · exact .fault .divisionByZero
  · exact .query

theorem sqrtStart_concludes :
    Concludes s (sqrtStart w s) (exactCall E w.bits s.A.toNat s.B.toNat .sqrt) := by
  refine withOperandA_concludes rfl fun a => ?_
  rw [exactCall, if_neg (not_operandTooWide_of_usesB a _ rfl)]
  exact .query

/-- R106: the verdict on a division answer whose accepted values are those of `f`. -/
theorem divAnswer_concludes (f : Bus → Bus → Bus × Bus) (wq wr : Bus) :
    Concludes s (divAnswer f wq wr s)
      (exactAnswer.divided s.A.toNat s.B.toNat wq.toNat wr.toNat (f wq wr).1.toNat (f wq wr).2.toNat) := by
  unfold divAnswer exactAnswer.divided
  by_cases bound : wr.toNat < s.B.toNat
  · by_cases product : wq.toNat * s.B.toNat + wr.toNat = s.A.toNat
    · simp only [if_pos bound, if_pos product, if_neg (Nat.not_le.2 bound), if_neg (not_not.2 product)]
      exact .value _ _
    · simp only [if_pos bound, if_neg product, if_neg (Nat.not_le.2 bound), if_pos product]
      exact .fault .divisionInvalid
  · simp only [if_neg bound, if_pos (Nat.not_lt.1 bound)]
    exact .fault .remainderOutOfRange

/-- R126. -/
theorem sqrtAnswer_concludes (wq wr : Bus) :
    Concludes s (sqrtAnswer wq wr s) (exactAnswer s.A.toNat s.B.toNat wq.toNat wr.toNat .sqrt) := by
  unfold sqrtAnswer exactAnswer
  by_cases low : wq.toNat * wq.toNat ≤ s.A.toNat
  · by_cases high : s.A.toNat < (wq.toNat + 1) * (wq.toNat + 1)
    · simp only [if_pos low, if_pos high, if_neg (Nat.not_lt.2 low), if_neg (Nat.not_le.2 high)]
      exact .value wq 0
    · simp only [if_pos low, if_neg high, if_neg (Nat.not_lt.2 low), if_pos (Nat.not_lt.1 high)]
      exact .fault .sqrtUnderestimate
  · simp only [if_neg low, if_pos (Nat.not_le.1 low)]
    exact .fault .sqrtOverestimate

end Families

/-! ### Every command -/

/-- `exactAnswer` for a command, an answer, and the operands that `s` holds. -/
def answerVerdict (i : Instr) (wq wr : Bus) (s : State) : Verdict :=
  exactAnswer s.A.toNat s.B.toNat wq.toNat wr.toNat i.op

/-- A command without a query: it concludes at once, in any stage, as the integers say. -/
def Computes (i : Instr) : Prop :=
  i.op.queriesWitness = false ∧ ∀ s, Concludes s (exec i s) (callVerdict i s)

/-- A witness-verified command: each of its two halves concludes as the integers say (R12, R25). -/
def Verifies (i : Instr) : Prop :=
  i.op.queriesWitness = true ∧ ∃ start answer, (∀ s, exec i s = witnessed s start answer) ∧
    (∀ s, Concludes s (start s) (callVerdict i s)) ∧
    ∀ wq wr s, Concludes s (answer wq wr s) (answerVerdict i wq wr s)

/-- A command of the division family verifies, whatever values `f` it accepts with. -/
theorem verifies_of_divides {i : Instr} (f : Bus → Bus → Bus × Bus) (hd : i.op.dividesByWitness = true)
    (he : ∀ s, exec i s = witnessed s (divStart i.width) (divAnswer f))
    (hf : ∀ a b wq wr, exactAnswer a b wq.toNat wr.toNat i.op =
      exactAnswer.divided a b wq.toNat wr.toNat (f wq wr).1.toNat (f wq wr).2.toNat) : Verifies i := by
  refine ⟨by simp [Op.queriesWitness, hd], _, _, he, fun s => divStart_concludes _ s _ hd, fun wq wr s => ?_⟩
  rw [answerVerdict, hf]
  exact divAnswer_concludes s f wq wr

/-- The `ISMUL` arm of R106 as a number. -/
theorem acceptDivides_toNat (wq wr : Bus) : (acceptDivides wq wr).1.toNat = bit (wr.toNat == 0) := by
  by_cases zero : wr.toNat = 0 <;> simp [acceptDivides, bit, zero]

theorem exec_computes_or_verifies : (i : Instr) → Computes i ∨ Verifies i
  | .export256 => .inl ⟨rfl, fun s => exportTo_concludes _ s _⟩
  | .narrow128 | .narrow256 => .inl ⟨rfl, fun s => narrow_concludes _ s _⟩
  | .addw64 | .addw128 => .inl ⟨rfl, fun s => addWidening_concludes _ s _ (by decide)⟩
  | .addc64 | .addc128 | .addc256 => .inl ⟨rfl, fun s => addChecked_concludes _ s _⟩
  | .sub64 | .sub128 | .sub256 => .inl ⟨rfl, fun s => subChecked_concludes _ s _⟩
  | .mulw64 | .mulw128 => .inl ⟨rfl, fun s => mulWidening_concludes _ s _ (by decide)⟩
  | .mulc64 | .mulc128 | .mulc256 => .inl ⟨rfl, fun s => mulChecked_concludes _ s _⟩
  | .eq64 | .eq128 | .eq256 => .inl ⟨rfl, fun s => eq_concludes _ s _⟩
  | .lt64 | .lt128 | .lt256 => .inl ⟨rfl, fun s => lt_concludes _ s _⟩
  | .lte64 | .lte128 | .lte256 => .inl ⟨rfl, fun s => lte_concludes _ s _⟩
  | .gt64 | .gt128 | .gt256 => .inl ⟨rfl, fun s => gt_concludes _ s _⟩
  | .gte64 | .gte128 | .gte256 => .inl ⟨rfl, fun s => gte_concludes _ s _⟩
  | .min64 | .min128 | .min256 => .inl ⟨rfl, fun s => min_concludes _ s _⟩
  | .max64 | .max128 | .max256 => .inl ⟨rfl, fun s => max_concludes _ s _⟩
  | .zero128 => .inl ⟨rfl, fun s => zero_concludes .w128 s _⟩
  | .zero256 => .inl ⟨rfl, fun s => zero_concludes .w256 s _⟩
  | .modulus128 | .modulus256 => .inl ⟨rfl, fun s => modulus_concludes _ s _⟩
  | .div64 | .div128 | .div256 =>
    .inr (verifies_of_divides acceptQuotient rfl (fun _ => rfl) fun _ _ _ _ => rfl)
  | .rem64 | .rem128 | .rem256 =>
    .inr (verifies_of_divides acceptRemainder rfl (fun _ => rfl) fun _ _ _ _ => rfl)
  | .divrem64 | .divrem128 | .divrem256 =>
    .inr (verifies_of_divides acceptBoth rfl (fun _ => rfl) fun _ _ _ _ => rfl)
  | .ismul64 | .ismul128 | .ismul256 =>
    .inr (verifies_of_divides acceptDivides rfl (fun _ => rfl) fun _ _ wq wr => by
      rw [acceptDivides_toNat]; rfl)
  | .sqrt64 | .sqrt128 | .sqrt256 =>
    .inr ⟨rfl, _, _, fun _ => rfl, fun s => sqrtStart_concludes _ s _, fun wq wr s => sqrtAnswer_concludes s wq wr⟩

end Sys2Proof.Machine
end

section
/-! PROOFS. The scope statements: what a conclusion leaves unchanged, how the port events conclude, the ranges of
their values, the invariant of R28, and the five obligations of the scope family. -/

namespace Sys2Proof.Machine

/-! ### The three ways a command goes on -/

/-- A command that is not waiting for an answer concludes as its call does. -/
theorem exec_concludes_call {i : Instr} {s : State} (h : s.stage ≠ .query ∨ i.op.queriesWitness = false) :
    Concludes s (exec i s) (callVerdict i s) := by
  rcases exec_computes_or_verifies i with ⟨-, compute⟩ | ⟨queries, start, answer, halves, starts, -⟩
  · exact compute s
  · have ready : s.stage ≠ .query := h.resolve_right (by simp [queries])
    rw [halves, witnessed_ready ready]
    exact starts s

/-- A witness-verified command takes the answer presented in `QUERY`. -/
theorem exec_concludes_answer {i : Instr} {s : State} {wq wr : Bus} {rest : List PortEvent}
    (hw : i.op.queriesWitness = true) (hq : s.stage = .query) (hi : s.inputs = .answer wq wr :: rest) :
    Concludes s.passEvent (exec i s) (answerVerdict i wq wr s) := by
  rcases exec_computes_or_verifies i with ⟨noQuery, -⟩ | ⟨-, start, answer, halves, -, answers⟩
  · simp [hw] at noQuery
  · rw [halves, witnessed_query hq hi]
    exact answers wq wr s.passEvent

/-- With no answer presented it waits, unchanged (R216). -/
theorem exec_eq_self_of_no_answer {i : Instr} {s t : State} (hw : i.op.queriesWitness = true)
    (hq : s.stage = .query) (hi : ∀ wq wr rest, s.inputs ≠ .answer wq wr :: rest) (h : exec i s = .next t) :
    t = s := by
  rcases exec_computes_or_verifies i with ⟨noQuery, -⟩ | ⟨-, start, answer, halves, -, -⟩
  · simp [hw] at noQuery
  · rw [halves] at h
    rcases witnessed_next h with ⟨ready, -⟩ | ⟨-, wq, wr, rest, presented, -⟩ | ⟨-, -, same⟩
    · exact absurd hq ready
    · exact absurd presented (hi wq wr rest)
    · exact same

/-! ### What a conclusion leaves -/

theorem Concludes.next_cases {s t : State} {v : Verdict} (h : Concludes s (.next t) v) :
    (∃ r0 r1 : Bus, t = s.done r0 r1 ∧ v = .value r0.toNat r1.toNat) ∨
      (∃ k : FaultKind, t = s.raise k ∧ v = .fault k.code.toNat) ∨ (t = s.query ∧ v = .query) := by
  cases h with
  | value r0 r1 => exact .inl ⟨r0, r1, rfl, rfl⟩
  | fault k => exact .inr (.inl ⟨k, rfl, rfl⟩)
  | query => exact .inr (.inr ⟨rfl, rfl⟩)

/-- Everything but the outcome registers is as before, and entering `QUERY` writes `stage` alone (R9). -/
theorem Concludes.frame {s t : State} {v : Verdict} (h : Concludes s (.next t) v) :
    t.CMD = s.CMD ∧ t.A = s.A ∧ t.B = s.B ∧ t.cfg = s.cfg ∧ t.inputs = s.inputs ∧
      (t.stage = .query → t = s.query) := by
  rcases h.next_cases with ⟨r0, r1, rfl, -⟩ | ⟨k, rfl, -⟩ | ⟨rfl, -⟩ <;> simp

/-- A step that concludes neither stops the machine nor is refused. -/
theorem Concludes.exists_next {s : State} {out : Out} {v : Verdict} (h : Concludes s out v) :
    ∃ t, out = .next t := by
  cases h <;> exact ⟨_, rfl⟩

/-- Unless it waits for the oracle, the call is over. -/
theorem Concludes.stage_done {s t : State} {v : Verdict} (h : Concludes s (.next t) v) (hv : v ≠ .query) :
    t.stage = .done := by
  rcases h.next_cases with ⟨r0, r1, rfl, -⟩ | ⟨k, rfl, -⟩ | ⟨-, rfl⟩
  · rfl
  · rfl
  · contradiction

/-- One verdict gives one outcome, whatever the state held before. -/
theorem Concludes.same_outcome {s₁ s₂ t₁ t₂ : State} {v : Verdict} (h₁ : Concludes s₁ (.next t₁) v)
    (h₂ : Concludes s₂ (.next t₂) v) :
    t₂.stage = t₁.stage ∧
      (t₁.stage = .done → t₂.CODE = t₁.CODE ∧ (t₁.CODE = 0 → t₂.RES0 = t₁.RES0 ∧ t₂.RES1 = t₁.RES1)) := by
  rcases h₁.next_cases with ⟨r0, r1, rfl, rfl⟩ | ⟨k, rfl, rfl⟩ | ⟨rfl, rfl⟩
  · rcases h₂.next_cases with ⟨q0, q1, rfl, e⟩ | ⟨_, -, e⟩ | ⟨-, e⟩
    · obtain ⟨e0, e1⟩ := Verdict.value.inj e
      exact ⟨rfl, fun _ => ⟨rfl, fun _ => ⟨BitVec.eq_of_toNat_eq e0.symm, BitVec.eq_of_toNat_eq e1.symm⟩⟩⟩
    · cases e
    · cases e
  · rcases h₂.next_cases with ⟨_, _, -, e⟩ | ⟨l, rfl, e⟩ | ⟨-, e⟩
    · cases e
    · have code : l.code = k.code := BitVec.eq_of_toNat_eq (Verdict.fault.inj e).symm
      exact ⟨rfl, fun _ => ⟨code, fun zero => absurd zero k.code_ne_zero⟩⟩
    · cases e
  · rcases h₂.next_cases with ⟨_, _, -, e⟩ | ⟨_, -, e⟩ | ⟨rfl, -⟩
    · cases e
    · cases e
    · exact ⟨rfl, fun done => by cases done⟩

/-- The answer to a witness-verified command settles it: no second query. -/
theorem answerVerdict_ne_query {i : Instr} (hw : i.op.queriesWitness = true) (wq wr : Bus) (s : State) :
    answerVerdict i wq wr s ≠ .query := by
  unfold answerVerdict
  generalize i.op = op at *
  cases op with
  | div | rem | divrem | ismul => simp only [exactAnswer, exactAnswer.divided]; split_ifs <;> simp
  | sqrt => simp only [exactAnswer]; split_ifs <;> simp
  | _ => cases hw

/-! ### Port events -/

theorem accepted_eq_latch {s : State} {cmd : Byte} {a b : Bus} {e : PortEvent} {rest : List PortEvent}
    (hi : s.inputs = e :: rest) : accepted s cmd a b rest = s.passEvent.latch cmd a b := by
  simp [accepted, State.latch, State.passEvent, hi]

theorem passEvent_eq {s : State} {e : PortEvent} {rest : List PortEvent} (hi : s.inputs = e :: rest) :
    s.passEvent = { s with inputs := rest } := by
  simp [State.passEvent, hi]

/-- The verdict on the call that `s` has latched: a function of the byte, the operands and the parameters. -/
def latchedVerdict (s : State) : Verdict :=
  match decode s.CMD with
  | .ok i => callVerdict i s
  | .error _ => .fault 9

theorem latchedVerdict_of_ok {s : State} {i : Instr} (hd : decode s.CMD = .ok i) :
    latchedVerdict s = callVerdict i s := by
  simp only [latchedVerdict, hd]

theorem latchedVerdict_of_error {s : State} {r : Reject} (hd : decode s.CMD = .error r) :
    latchedVerdict s = .fault 9 := by
  simp only [latchedVerdict, hd]

/-- Only a legal byte ends otherwise than in `IllegalCommand` (R191). -/
theorem decodes_of_latchedVerdict {s : State} {v : Verdict} (h : latchedVerdict s = v) (hv : v ≠ .fault 9) :
    ∃ i, decode s.CMD = .ok i ∧ callVerdict i s = v := by
  cases hd : decode s.CMD with
  | ok i => exact ⟨i, rfl, latchedVerdict_of_ok hd ▸ h⟩
  | error r => exact absurd (h.symm.trans (latchedVerdict_of_error hd)) hv

/-- R24, R57, R7: how an accepted call ends, for every byte. -/
theorem step_call_concludes {s : State} {cmd : Byte} {a b : Bus} {rest : List PortEvent}
    (hq : s.stage ≠ .query) (hi : s.inputs = .call cmd a b :: rest) :
    Concludes (accepted s cmd a b rest) (step s) (latchedVerdict (accepted s cmd a b rest)) := by
  have called : step s = callStep cmd a b s := by simp [step, portStep, hi]
  have ready : s.READY = true := by simpa [State.READY] using hq
  rw [called, callStep, if_pos ready, accepted_eq_latch hi]
  cases hd : decode cmd with
  | ok i =>
    rw [latchedVerdict_of_ok (s := s.passEvent.latch cmd a b) hd]
    exact exec_concludes_call (.inl hq)
  | error r =>
    rw [latchedVerdict_of_error (s := s.passEvent.latch cmd a b) hd]
    exact .fault .illegalCommand

/-- R25, R7: how an answer to a witness-verified command ends. -/
theorem step_answer_concludes {s : State} {wq wr : Bus} {rest : List PortEvent} {i : Instr}
    (hq : s.stage = .query) (hi : s.inputs = .answer wq wr :: rest) (hd : decode s.CMD = .ok i)
    (hw : i.op.queriesWitness = true) : Concludes s.passEvent (step s) (answerVerdict i wq wr s) := by
  have run : step s = exec i s := by simp [step, portStep, hi, answerStep, State.WREQ, hq, hd, hw]
  rw [run]
  exact exec_concludes_answer hw hq hi

/-! ### The values of a verdict -/

theorem bit_lt_two (p : Bool) : bit p < 2 := by cases p <;> decide

theorem wideBits_eq_double : (w : Width) → w.wideBits = w.bits + w.bits
  | .w64 | .w128 | .w256 => rfl

/-- Past the range check the operands that are used fit the width (R51). -/
theorem used_operands_fit {W a b : Nat} {op : Op} (h : ¬ OperandTooWide W a b op) :
    (op.usesA = true → a < 2 ^ W) ∧ (op.usesB = true → b < 2 ^ W) := by
  obtain ⟨hA, hB⟩ := not_or.1 h
  exact ⟨fun ha => Nat.not_le.1 fun wide => hA ⟨ha, wide⟩, fun hb => Nat.not_le.1 fun wide => hB ⟨hb, wide⟩⟩

/-- R52: a value that a call ends with has the command's result width, and no second result. -/
theorem callVerdict_value_in_range {i : Instr} {s : State} {r0 r1 : Nat} (h : callVerdict i s = .value r0 r1) :
    r0 < 2 ^ resultBits s.cfg.exportBits i ∧ r1 = 0 := by
  unfold callVerdict exactCall at h
  split at h
  next => cases h
  next checked =>
    obtain ⟨hA, hB⟩ := used_operands_fit checked
    unfold resultBits
    generalize i.width = w at *
    generalize i.op = op at *
    cases op with
    | exportTo | addc | mulc =>
      dsimp only at h
      split_ifs at h with fit
      cases h
      exact ⟨fit, rfl⟩
    | narrow =>
      dsimp only at h
      split_ifs at h with fit
      cases h
      exact ⟨halfBits_eq_half w ▸ fit, rfl⟩
    | sub =>
      dsimp only at h
      split_ifs at h
      cases h
      exact ⟨(Nat.sub_le ..).trans_lt (hA rfl), rfl⟩
    | addw =>
      cases h
      have := hA rfl
      have := hB rfl
      refine ⟨?_, rfl⟩
      rw [wideBits_eq_double, pow_add]
      nlinarith
    | mulw =>
      cases h
      refine ⟨?_, rfl⟩
      rw [wideBits_eq_double, pow_add]
      exact Nat.mul_lt_mul'' (hA rfl) (hB rfl)
    | eq | lt | lte | gt | gte =>
      cases h
      exact ⟨bit_lt_two _, rfl⟩
    | min =>
      cases h
      exact ⟨(Nat.min_le_left ..).trans_lt (hA rfl), rfl⟩
    | max =>
      cases h
      exact ⟨Nat.max_lt.2 ⟨hA rfl, hB rfl⟩, rfl⟩
    | zero =>
      cases h
      exact ⟨Nat.two_pow_pos _, rfl⟩
    | modulus =>
      cases h
      have half : w.bits / 2 < w.bits := by cases w <;> decide
      exact ⟨Nat.pow_lt_pow_right (by decide) half, rfl⟩
    | div | rem | divrem | ismul =>
      dsimp only at h
      split_ifs at h
    | sqrt => cases h

/-- R28, R224: a call that queries is sound. -/
theorem queryIsSound_of_callVerdict {i : Instr} {s : State} (hd : decode s.CMD = .ok i)
    (h : callVerdict i s = .query) : QueryIsSound s := by
  suffices sound : i.op.queriesWitness = true ∧ s.A.toNat < 2 ^ i.width.bits ∧
      (i.op.dividesByWitness = true → s.B.toNat < 2 ^ i.width.bits ∧ s.B ≠ 0) from ⟨i, hd, sound⟩
  unfold callVerdict exactCall at h
  split at h
  next => cases h
  next checked =>
    obtain ⟨hA, hB⟩ := used_operands_fit checked
    generalize i.op = op at *
    cases op with
    | div | rem | divrem | ismul =>
      dsimp only at h
      split_ifs at h with zero
      exact ⟨rfl, hA rfl, fun _ => ⟨hB rfl, mt (congrArg BitVec.toNat) zero⟩⟩
    | sqrt => exact ⟨rfl, hA rfl, fun divides => by cases divides⟩
    | exportTo | narrow | addc | sub | mulc =>
      dsimp only at h
      split_ifs at h
    | _ => cases h

/-- The only value of `divided` is the one it is given, after both tests of R106. -/
theorem divided_eq_value {a b wq wr q r r0 r1 : Nat} (h : exactAnswer.divided a b wq wr q r = .value r0 r1) :
    wr < b ∧ wq * b + wr = a ∧ r0 = q ∧ r1 = r := by
  unfold exactAnswer.divided at h
  split_ifs at h with bound product
  cases h
  exact ⟨Nat.not_le.1 bound, not_not.1 product, rfl, rfl⟩

/-- A candidate quotient that reconstructs the dividend is not larger than it. -/
theorem quotient_le_of_reconstructs {a b wq wr : Nat} (bound : wr < b) (product : wq * b + wr = a) : wq ≤ a := by
  have := Nat.le_mul_of_pos_right wq (Nat.zero_lt_of_lt bound)
  omega

/-- R52, R106, R126: a value that an answer to a sound query ends with. -/
theorem answerVerdict_value_in_range {i : Instr} {s : State} {wq wr : Bus} {r0 r1 : Nat}
    (hA : s.A.toNat < 2 ^ i.width.bits)
    (hB : i.op.dividesByWitness = true → s.B.toNat < 2 ^ i.width.bits ∧ s.B ≠ 0)
    (h : answerVerdict i wq wr s = .value r0 r1) :
    r0 < 2 ^ resultBits s.cfg.exportBits i ∧ (i.op ≠ .divrem → r1 = 0) := by
  unfold answerVerdict at h
  unfold resultBits
  generalize i.width = w at *
  generalize i.op = op at *
  cases op with
  | div =>
    obtain ⟨bound, product, rfl, rfl⟩ := divided_eq_value h
    exact ⟨(quotient_le_of_reconstructs bound product).trans_lt hA, fun _ => rfl⟩
  | rem =>
    obtain ⟨bound, -, rfl, rfl⟩ := divided_eq_value h
    exact ⟨bound.trans (hB rfl).1, fun _ => rfl⟩
  | divrem =>
    obtain ⟨bound, product, rfl, rfl⟩ := divided_eq_value h
    exact ⟨(quotient_le_of_reconstructs bound product).trans_lt hA, by simp⟩
  | ismul =>
    obtain ⟨-, -, rfl, rfl⟩ := divided_eq_value h
    exact ⟨bit_lt_two _, fun _ => rfl⟩
  | sqrt =>
    simp only [exactAnswer] at h
    split_ifs at h with high low
    cases h
    exact ⟨(Nat.le_mul_self _).trans_lt ((Nat.not_lt.1 high).trans_lt hA), fun _ => rfl⟩
  | _ => cases h

/-! ### The invariant -/

theorem Inv.done {s : State} {r0 r1 : Bus} (hc : s.cfg.wellFormed = true) (hv : ValueIsInRange (s.done r0 r1)) :
    Inv (s.done r0 r1) where
  config := hc
  code := by simp
  idle := by simp
  query := by simp
  fault := by simp
  value := fun _ _ => hv

theorem Inv.raise {s : State} (k : FaultKind) (hc : s.cfg.wellFormed = true) : Inv (s.raise k) where
  config := hc
  code := k.code_le
  idle := by simp
  query := by simp
  fault := by simp
  value := fun _ zero => absurd zero k.code_ne_zero

theorem Inv.enterQuery {s : State} (hc : s.cfg.wellFormed = true) (hcode : s.CODE.toNat ≤ 10)
    (hq : QueryIsSound s) : Inv s.query where
  config := hc
  code := hcode
  idle := by simp
  query := fun _ => hq
  fault := by simp
  value := by simp

theorem Inv.resetRegisters {s : State} (hc : s.cfg.wellFormed = true) : Inv s.resetRegisters where
  config := hc
  code := by simp
  idle := by simp
  query := by simp
  fault := by simp
  value := by simp

/-- Events are no part of the invariant. -/
theorem Inv.passEvent {s : State} (h : Inv s) : Inv s.passEvent := ⟨h.1, h.2, h.3, h.4, h.5, h.6⟩

/-- An accepted call ends in a state that meets the invariant, whatever the registers held. -/
theorem Inv.of_call {s t : State} (hc : s.cfg.wellFormed = true) (hcode : s.CODE.toNat ≤ 10)
    (h : Concludes s (.next t) (latchedVerdict s)) : Inv t := by
  rcases h.next_cases with ⟨r0, r1, rfl, hv⟩ | ⟨k, rfl, -⟩ | ⟨rfl, hv⟩
  · obtain ⟨i, hd, hv⟩ := decodes_of_latchedVerdict hv (by simp)
    obtain ⟨range, zero⟩ := callVerdict_value_in_range hv
    exact .done hc ⟨i, hd, range, fun _ => BitVec.eq_of_toNat_eq zero⟩
  · exact .raise k hc
  · obtain ⟨i, hd, hv⟩ := decodes_of_latchedVerdict hv (by simp)
    exact .enterQuery hc hcode (queryIsSound_of_callVerdict hd hv)

/-- The answer to a sound query ends in a state that meets the invariant. -/
theorem Inv.of_answer {s t : State} {i : Instr} {wq wr : Bus} (hc : s.cfg.wellFormed = true)
    (hs : QueryIsSound s) (hd : decode s.CMD = .ok i) (hw : i.op.queriesWitness = true)
    (h : Concludes s (.next t) (answerVerdict i wq wr s)) : Inv t := by
  obtain ⟨j, hj, -, hA, hB⟩ := hs
  cases hd.symm.trans hj
  rcases h.next_cases with ⟨r0, r1, rfl, hv⟩ | ⟨k, rfl, -⟩ | ⟨-, hv⟩
  · obtain ⟨range, zero⟩ := answerVerdict_value_in_range hA hB hv
    exact .done hc ⟨i, hd, range, fun hn => BitVec.eq_of_toNat_eq (zero hn)⟩
  · exact .raise k hc
  · exact absurd hv (answerVerdict_ne_query hw wq wr s)

/-! ### The obligations -/

/-- Settles O12, by cases on the port event: a step that concludes meets the invariant by its verdict. -/
theorem everyStepKeepsTheInvariant : Obligations.EveryStepKeepsTheInvariant := by
  unfold Obligations.EveryStepKeepsTheInvariant
  intro s t hs h
  rcases portStep_next h with ⟨-, rfl⟩ | ⟨cmd, a, b, rest, hi, call⟩ | ⟨wq, wr, rest, hi, answer⟩ | ⟨rest, hi, rfl⟩
  · exact hs
  · by_cases hq : s.stage = .query
    · rcases callStep_next call with ⟨-, rfl⟩ | ⟨ready, -⟩ | ⟨ready, -⟩
      · exact hs.passEvent
      · exact absurd hq ready
      · exact absurd hq ready
    · have concludes := step_call_concludes hq hi
      rw [h] at concludes
      exact Inv.of_call (s := accepted s cmd a b rest) hs.config hs.code concludes
  · rcases answerStep_next answer with ⟨-, rfl⟩ | ⟨hq, i, hd, hw, -⟩
    · exact hs.passEvent
    · have concludes := step_answer_concludes hq hi hd hw
      rw [h] at concludes
      exact Inv.of_answer (s := s.passEvent) hs.config (hs.passEvent.query hq) hd hw concludes
  · exact .resetRegisters hs.config

/-- Settles O15: the frame of each of the three ways a command goes on. -/
theorem commandsWriteOnlyTheOutcomeRegisters : Obligations.CommandsWriteOnlyTheOutcomeRegisters := by
  unfold Obligations.CommandsWriteOnlyTheOutcomeRegisters
  intro i s t h
  by_cases running : s.stage ≠ .query ∨ i.op.queriesWitness = false
  · have concludes := exec_concludes_call running
    rw [h] at concludes
    obtain ⟨cmd, a, b, cfg, inputs, query⟩ := concludes.frame
    exact ⟨cmd, a, b, cfg, .inl inputs, query⟩
  · simp only [not_or, not_not, Bool.not_eq_false] at running
    obtain ⟨hq, hw⟩ := running
    by_cases presented : ∃ wq wr rest, s.inputs = .answer wq wr :: rest
    · obtain ⟨wq, wr, rest, hi⟩ := presented
      have concludes := exec_concludes_answer hw hq hi
      rw [h] at concludes
      obtain ⟨cmd, a, b, cfg, inputs, -⟩ := concludes.frame
      have taken : s.inputs = .answer wq wr :: t.inputs := by simp [inputs, hi]
      have done := concludes.stage_done (answerVerdict_ne_query hw wq wr s)
      exact ⟨cmd, a, b, cfg, .inr ⟨hq, hw, wq, wr, taken⟩, by simp [done]⟩
    · push Not at presented
      obtain rfl := exec_eq_self_of_no_answer hw hq presented h
      exact ⟨rfl, rfl, rfl, rfl, .inl rfl, fun hq => by simp [← hq]⟩

/-- Settles O16: both runs conclude by the same verdict, which is a function of the call, and of the answer. -/
theorem outcomeDependsOnTheCallAlone : Obligations.OutcomeDependsOnTheCallAlone := by
  unfold Obligations.OutcomeDependsOnTheCallAlone
  constructor
  · intro s₁ s₂ t₁ cmd a b rest₁ rest₂ hq₁ hq₂ hc hi₁ hi₂ h₁
    have c₁ := step_call_concludes hq₁ hi₁
    have c₂ := step_call_concludes hq₂ hi₂
    have verdict : latchedVerdict (accepted s₂ cmd a b rest₂) = latchedVerdict (accepted s₁ cmd a b rest₁) := by
      simp only [latchedVerdict, callVerdict, accepted, hc]
    obtain ⟨t₂, h₂⟩ := c₂.exists_next
    rw [h₁] at c₁
    rw [h₂, verdict] at c₂
    obtain ⟨cmd₁, a₁, b₁, -⟩ := c₁.frame
    obtain ⟨cmd₂, a₂, b₂, -⟩ := c₂.frame
    obtain ⟨stage, outcome⟩ := c₁.same_outcome c₂
    exact ⟨t₂, h₂, stage, cmd₂.trans cmd₁.symm, a₂.trans a₁.symm, b₂.trans b₁.symm, outcome⟩
  · intro s₁ s₂ t₁ wq wr rest₁ rest₂ hq₁ hq₂ hcmd hA hB hi₁ hi₂ h₁
    have answer₁ : answerStep s₁ = .next t₁ := by simpa [step, portStep, hi₁] using h₁
    rcases answerStep_next answer₁ with ⟨idle, -⟩ | ⟨-, i, hd, hw, -⟩
    · exact absurd hq₁ idle
    · have c₁ := step_answer_concludes hq₁ hi₁ hd hw
      have c₂ := step_answer_concludes hq₂ hi₂ (hcmd ▸ hd) hw
      have verdict : answerVerdict i wq wr s₂ = answerVerdict i wq wr s₁ := by simp only [answerVerdict, hA, hB]
      obtain ⟨t₂, h₂⟩ := c₂.exists_next
      rw [h₁] at c₁
      rw [h₂, verdict] at c₂
      obtain ⟨stage, outcome⟩ := c₁.same_outcome c₂
      obtain ⟨code, results⟩ := outcome (c₁.stage_done (answerVerdict_ne_query hw wq wr s₁))
      exact ⟨t₂, h₂, stage, code, results⟩

/-- Settles O46: the accepted call concludes as the integers say. -/
theorem everyCallAgreesWithIntegerArithmetic : Obligations.EveryCallAgreesWithIntegerArithmetic := by
  unfold Obligations.EveryCallAgreesWithIntegerArithmetic
  intro s cmd a b rest i hq hi hd
  have concludes := step_call_concludes hq hi
  rw [latchedVerdict_of_ok (s := accepted s cmd a b rest) hd] at concludes
  exact concludes.endsAs

/-- Settles O47: the answer concludes as the integers say. -/
theorem everyAnswerAgreesWithIntegerArithmetic : Obligations.EveryAnswerAgreesWithIntegerArithmetic := by
  unfold Obligations.EveryAnswerAgreesWithIntegerArithmetic
  intro s wq wr rest i hq hi hd hw
  rw [← passEvent_eq hi]
  exact (step_answer_concludes hq hi hd hw).endsAs

end Sys2Proof.Machine
end

section
/-! PROOFS. The state and its ports: the structured types on the bus (R22, R23), the views of the response and the
witness port (R16, R25), the decoder's inversion (R45 to R50), what a step does with each port event (R24, R25, R213,
R214), and the seven obligations of the state family. -/

namespace Sys2Proof

open Machine

/-! ### Structured types -/

theorem U128.flat_toNat (x : U128) : x.flat.toNat = x.value := append_toNat x.high x.low

theorem U256.flat_toNat (x : U256) : x.flat.toNat = x.value := by
  rw [U256.flat, append_toNat, U128.flat_toNat, U128.flat_toNat, U256.value]

/-- The four limbs of a U256 are its digits in base `2^64` (R22). -/
theorem U256.value_eq_limbs (x : U256) :
    x.value = x.high.high.toNat * 2 ^ 192 + x.high.low.toNat * 2 ^ 128 + x.low.high.toNat * 2 ^ 64 + x.low.low.toNat := by
  simp only [U256.value, U128.value]
  ring

theorem limb_eq_of_digit {w : Nat} {v : BitVec w} {i : Nat} {l : Limb}
    (h : v.toNat / 2 ^ (64 * i) % 2 ^ 64 = l.toNat) : limb v i = l :=
  BitVec.eq_of_toNat_eq ((limb_toNat v i).trans h)

@[simp] theorem U128.ofFlat_flat (x : U128) : U128.ofFlat x.flat = x := by
  obtain ⟨l0, l1⟩ := x
  have digits : (U128.flat ⟨l0, l1⟩).toNat = l1.toNat * 2 ^ 64 + l0.toNat := U128.flat_toNat _
  rw [U128.ofFlat, limb_eq_of_digit (l := l0) (by omega), limb_eq_of_digit (l := l1) (by omega)]

@[simp] theorem U256.ofFlat_flat (x : U256) : U256.ofFlat x.flat = x := by
  obtain ⟨⟨l0, l1⟩, ⟨l2, l3⟩⟩ := x
  have digits : (U256.flat ⟨⟨l0, l1⟩, ⟨l2, l3⟩⟩).toNat =
      l3.toNat * 2 ^ 192 + l2.toNat * 2 ^ 128 + l1.toNat * 2 ^ 64 + l0.toNat :=
    (U256.flat_toNat _).trans (U256.value_eq_limbs _)
  rw [U256.ofFlat, limb_eq_of_digit (l := l0) (by omega), limb_eq_of_digit (l := l1) (by omega),
    limb_eq_of_digit (l := l2) (by omega), limb_eq_of_digit (l := l3) (by omega)]

/-- Every bus is the flat form of its four limbs (R23). -/
@[simp] theorem U256.flat_ofFlat (v : Bus) : (U256.ofFlat v).flat = v := by
  have bound := v.isLt
  apply BitVec.eq_of_toNat_eq
  rw [U256.flat_toNat, U256.value_eq_limbs]
  simp only [U256.ofFlat, limb_toNat]
  omega

/-! ### The decoder's inversion -/

theorem decodeWidth_eq_ok {n : Nat} {w : Width} (h : decodeWidth n = .ok w) : w.code = n := by
  unfold decodeWidth at h
  split at h <;> cases h <;> rfl

/-- The map of R49 has each command in the row of its operation and the column of its width. -/
theorem instrOf_eq_some {op : Op} {w : Width} {i : Instr} (h : instrOf op w = some i) :
    i.op = op ∧ i.width = w := by
  unfold instrOf at h
  split at h <;> cases h <;> exact ⟨rfl, rfl⟩

/-- A byte that decodes has passed the three tables: of the width, of the operation, and of R49's legal widths. -/
theorem decode_eq_ok {cmd : Byte} {i : Instr} (h : decode cmd = .ok i) :
    decodeWidth (cmdWidthField cmd) = .ok i.width ∧
      decodeOp (cmdGroupField cmd) (cmdFunctionField cmd) = .ok i.op ∧ instrOf i.op i.width = some i := by
  unfold decode at h
  split at h
  next => cases h
  next w hw =>
    split at h
    next => cases h
    next op hop =>
      split at h
      next j hj =>
        cases h
        obtain ⟨rfl, rfl⟩ := instrOf_eq_some hj
        exact ⟨hw, hop, hj⟩
      next => cases h

/-- Field `W` of a command's byte is its width code (R45, R46). -/
theorem width_code_of_decode {cmd : Byte} {i : Instr} (h : decode cmd = .ok i) :
    (cmd.extractLsb' 6 2).toNat = i.width.code :=
  (decodeWidth_eq_ok (decode_eq_ok h).1).symm

/-- A witness-verified operation makes a division query or a square-root query, not both (R25). -/
theorem Op.queriesWitness_iff {op : Op} :
    op.queriesWitness = true ↔ op.dividesByWitness = true ∨ op = .sqrt := by
  simp [Op.queriesWitness]

theorem Op.ne_sqrt_of_dividesByWitness {op : Op} (h : op.dividesByWitness = true) : op ≠ .sqrt := by
  rintro rfl
  cases h

end Sys2Proof

namespace Sys2Proof.Machine

/-! ### The response port -/

theorem State.READY_iff (s : State) : s.READY = true ↔ s.stage ≠ .query := decide_eq_true_iff
theorem State.DONE_O_iff (s : State) : s.DONE_O = true ↔ s.stage = .done := decide_eq_true_iff
theorem State.WREQ_iff (s : State) : s.WREQ = true ↔ s.stage = .query := decide_eq_true_iff

/-- The status byte as a number: `stage` weighs 16 and the two upper bits are zero (R16). -/
theorem State.STATUS_toNat (s : State) : s.STATUS.toNat = s.stage.bits.toNat * 2 ^ 4 + s.CODE.toNat := by
  rw [State.STATUS, append_toNat, append_toNat]
  simp

theorem State.STATUS_field_toNat (s : State) (start len : Nat) :
    (s.STATUS.extractLsb' start len).toNat = (s.stage.bits.toNat * 2 ^ 4 + s.CODE.toNat) / 2 ^ start % 2 ^ len := by
  rw [BitVec.extractLsb'_toNat, Nat.shiftRight_eq_div_pow, State.STATUS_toNat]

theorem State.STATUS_code (s : State) : s.STATUS.extractLsb' 0 4 = s.CODE := by
  have code := s.CODE.isLt
  apply BitVec.eq_of_toNat_eq
  rw [State.STATUS_field_toNat]
  omega

theorem State.STATUS_stage (s : State) : s.STATUS.extractLsb' 4 2 = s.stage.bits := by
  have code := s.CODE.isLt
  have stage := s.stage.bits.isLt
  apply BitVec.eq_of_toNat_eq
  rw [State.STATUS_field_toNat]
  omega

theorem State.STATUS_upper (s : State) : s.STATUS.extractLsb' 6 2 = 0 := by
  have code := s.CODE.isLt
  have stage := s.stage.bits.isLt
  have upper : (s.STATUS.extractLsb' 6 2).toNat = 0 := by
    rw [State.STATUS_field_toNat]
    omega
  exact BitVec.eq_of_toNat_eq upper

/-! ### The witness port -/

/-- R25: the request of a division query. -/
theorem witnessRequest_of_divides {s : State} {i : Instr} (hq : s.stage = .query) (hd : decode s.CMD = .ok i)
    (hw : i.op.dividesByWitness = true) :
    s.witnessRequest = some { WKIND := 0, WW := s.CMD.extractLsb' 6 2, WA := s.A, WB := s.B } := by
  simp [State.witnessRequest, State.WREQ, hq, hd, hw]

/-- R25: the request of a square-root query. -/
theorem witnessRequest_of_sqrt {s : State} {i : Instr} (hq : s.stage = .query) (hd : decode s.CMD = .ok i)
    (hw : i.op = .sqrt) :
    s.witnessRequest = some { WKIND := 1, WW := s.CMD.extractLsb' 6 2, WA := s.A, WB := 0 } := by
  simp [State.witnessRequest, State.WREQ, hq, hd, hw, Op.dividesByWitness]

/-- The request is a view of the registers, not of the events to come. -/
@[simp] theorem State.passEvent_witnessRequest (s : State) : s.passEvent.witnessRequest = s.witnessRequest := rfl

/-! ### A step on each port event -/

theorem step_no_event {s : State} (hi : s.inputs = []) : step s = .next s := by
  simp [step, portStep, hi]

theorem step_reset {s : State} {rest : List PortEvent} (hi : s.inputs = .reset :: rest) :
    step s = .next s.passEvent.resetRegisters := by
  simp [step, portStep, hi]

/-- R213: a call in `QUERY` passes. -/
theorem step_call_in_query {s : State} {cmd : Byte} {a b : Bus} {rest : List PortEvent}
    (hq : s.stage = .query) (hi : s.inputs = .call cmd a b :: rest) : step s = .next s.passEvent := by
  simp [step, portStep, hi, callStep, State.READY, hq]

/-- R214: an answer outside `QUERY` passes. -/
theorem step_answer_outside_query {s : State} {wq wr : Bus} {rest : List PortEvent}
    (hq : s.stage ≠ .query) (hi : s.inputs = .answer wq wr :: rest) : step s = .next s.passEvent := by
  simp [step, portStep, hi, answerStep, State.WREQ, hq]

/-- R24, R57: an accepted call of a legal byte is `exec` of its command. -/
theorem step_call_eq_exec {s : State} {cmd : Byte} {a b : Bus} {rest : List PortEvent} {i : Instr}
    (hq : s.stage ≠ .query) (hi : s.inputs = .call cmd a b :: rest) (hd : decode cmd = .ok i) :
    step s = exec i (accepted s cmd a b rest) := by
  simp [accepted_eq_latch hi, step, portStep, hi, callStep, State.READY, hq, hd]

/-- R25: an accepted answer is `exec` of the latched command. -/
theorem step_answer_eq_exec {s : State} {wq wr : Bus} {rest : List PortEvent} {i : Instr}
    (hq : s.stage = .query) (hi : s.inputs = .answer wq wr :: rest) (hd : decode s.CMD = .ok i)
    (hw : i.op.queriesWitness = true) : step s = exec i s := by
  simp [step, portStep, hi, answerStep, State.WREQ, hq, hd, hw]

/-- R213, R216: only an event without effect leaves an outstanding query outstanding. -/
theorem step_stays_in_query {s t : State} (hq : s.stage = .query) (h : step s = .next t) (ht : t.stage = .query) :
    t = s ∨ t = s.passEvent := by
  rcases portStep_next h with ⟨-, same⟩ | ⟨cmd, a, b, rest, -, call⟩ | ⟨wq, wr, rest, hi, answer⟩ | ⟨rest, -, rfl⟩
  · exact .inl same
  · rcases callStep_next call with ⟨-, passed⟩ | ⟨ready, -⟩ | ⟨ready, -⟩
    · exact .inr passed
    · exact absurd hq ready
    · exact absurd hq ready
  · rcases answerStep_next answer with ⟨idle, -⟩ | ⟨-, i, hd, hw, -⟩
    · exact absurd hq idle
    · have concludes := step_answer_concludes hq hi hd hw
      rw [h] at concludes
      have done := concludes.stage_done (answerVerdict_ne_query hw wq wr s)
      cases ht.symm.trans done
  · cases ht

/-! ### The obligations -/

/-- Settles O10: a sound query is a division query or a square-root query, and only a step without effect leaves it
outstanding. -/
theorem witnessRequestDescribesTheCall : Obligations.WitnessRequestDescribesTheCall := by
  unfold Obligations.WitnessRequestDescribesTheCall
  intro s hs hq
  constructor
  · obtain ⟨i, hd, hw, hA, hB⟩ := hs.query hq
    have width := width_code_of_decode hd
    rcases Op.queriesWitness_iff.1 hw with divides | root
    · obtain ⟨fits, nonzero⟩ := hB divides
      have positive : 0 < s.B.toNat := Nat.pos_of_ne_zero fun zero => nonzero (BitVec.eq_of_toNat_eq zero)
      have notRoot := Op.ne_sqrt_of_dividesByWitness divides
      exact ⟨i, _, hd, witnessRequest_of_divides hq hd divides, width, rfl, hA,
        fun _ => ⟨rfl, rfl, positive, fits⟩, fun root => absurd root notRoot⟩
    · exact ⟨i, _, hd, witnessRequest_of_sqrt hq hd root, width, rfl, hA,
        fun divides => absurd root (Op.ne_sqrt_of_dividesByWitness divides), fun _ => ⟨rfl, rfl⟩⟩
  · intro t h ht
    rcases step_stays_in_query hq h ht with rfl | rfl
    · rfl
    · exact s.passEvent_witnessRequest

/-- Settles O13, by cases on the next event: what is accepted concludes, and what is not passes. -/
theorem noStepStopsTheMachine : Obligations.NoStepStopsTheMachine := by
  unfold Obligations.NoStepStopsTheMachine
  intro s hs
  rcases hi : s.inputs with - | ⟨⟨cmd, a, b⟩ | ⟨wq, wr⟩ | -, rest⟩
  · exact ⟨_, step_no_event hi⟩
  · by_cases hq : s.stage = .query
    · exact ⟨_, step_call_in_query hq hi⟩
    · exact (step_call_concludes hq hi).exists_next
  · by_cases hq : s.stage = .query
    · obtain ⟨i, hd, hw, -⟩ := hs.query hq
      exact (step_answer_concludes hq hi hd hw).exists_next
    · exact ⟨_, step_answer_outside_query hq hi⟩
  · exact ⟨_, step_reset hi⟩

/-- Settles O29. -/
theorem structuredTypesLieOnTheBus : Obligations.StructuredTypesLieOnTheBus :=
  ⟨fun x => ⟨x.flat_toNat, x.ofFlat_flat⟩, fun x => ⟨x.flat_toNat, x.ofFlat_flat, x.value_eq_limbs⟩,
    U256.flat_ofFlat⟩

/-- Settles O5. -/
theorem callStepRunsTheDecodedCommand : Obligations.CallStepRunsTheDecodedCommand :=
  fun _ _ _ _ _ _ hq hi hd => step_call_eq_exec hq hi hd

/-- Settles O6. -/
theorem answerStepRunsTheLatchedCommand : Obligations.AnswerStepRunsTheLatchedCommand :=
  fun _ _ _ _ _ hq hi hd hw => step_answer_eq_exec hq hi hd hw

/-- Settles O9: the field of `stage` is its code, which each stage gives by definition. -/
theorem responsePortShowsTheState : Obligations.ResponsePortShowsTheState := by
  unfold Obligations.ResponsePortShowsTheState
  intro s
  have code {stage : Stage} (h : s.stage = stage) : s.STATUS.extractLsb' 4 2 = stage.bits := h ▸ s.STATUS_stage
  exact ⟨s.STATUS_code, s.STATUS_stage, s.STATUS_upper, code, code, code, s.READY_iff, s.DONE_O_iff, s.WREQ_iff⟩

/-- Settles O11: reset meets the invariant from any registers, and from those of `State.reset` it changes none. -/
theorem resetStateMeetsTheInvariant : Obligations.ResetStateMeetsTheInvariant :=
  Inv.resetRegisters (s := State.reset) (by decide)

end Sys2Proof.Machine
end

section
/-! PROOFS. The encoding (R45 to R50): the three fields of a command's byte, the decoder's tables read in both
directions, and the three obligations of the encoding family. -/

namespace Sys2Proof

open Machine

/-! ### The fields fit their bits (R45) -/

theorem Width.code_lt (w : Width) : w.code < 2 ^ 2 := by cases w <;> decide
theorem Op.group_lt (op : Op) : op.group < 2 ^ 3 := by cases op <;> decide
theorem Op.function_lt (op : Op) : op.function < 2 ^ 3 := by cases op <;> decide

/-! ### A byte and its three fields -/

/-- R48, read off the concatenation. -/
theorem encode_toNat (i : Instr) :
    (encode i).toNat = i.width.code <<< 6 ||| i.op.group <<< 3 ||| i.op.function := by
  rw [encode, BitVec.toNat_append, BitVec.toNat_append, BitVec.toNat_ofNat, BitVec.toNat_ofNat, BitVec.toNat_ofNat,
    Nat.mod_eq_of_lt i.width.code_lt, Nat.mod_eq_of_lt i.op.group_lt, Nat.mod_eq_of_lt i.op.function_lt,
    Nat.shiftLeft_or_distrib, ← Nat.shiftLeft_add]

/-- The fields lie side by side, so R48's "or" is a sum. -/
theorem encode_toNat_eq_sum (i : Instr) :
    (encode i).toNat = i.width.code * 2 ^ 6 + i.op.group * 2 ^ 3 + i.op.function := by
  rw [encode_toNat, Nat.shiftLeft_add _ 3 3, ← Nat.shiftLeft_or_distrib,
    ← Nat.shiftLeft_add_eq_or_of_lt i.op.function_lt, ← Nat.shiftLeft_add_eq_or_of_lt i.op.group_lt]
  simp only [Nat.shiftLeft_eq]
  ring

/-- R45: the fields of a byte as digits of its number. -/
theorem cmdWidthField_eq (cmd : Byte) : cmdWidthField cmd = cmd.toNat / 2 ^ 6 % 2 ^ 2 := by
  simp [cmdWidthField, BitVec.extractLsb'_toNat, Nat.shiftRight_eq_div_pow]

theorem cmdGroupField_eq (cmd : Byte) : cmdGroupField cmd = cmd.toNat / 2 ^ 3 % 2 ^ 3 := by
  simp [cmdGroupField, BitVec.extractLsb'_toNat, Nat.shiftRight_eq_div_pow]

theorem cmdFunctionField_eq (cmd : Byte) : cmdFunctionField cmd = cmd.toNat % 2 ^ 3 := by
  simp [cmdFunctionField, BitVec.extractLsb'_toNat]

@[simp] theorem cmdWidthField_encode (i : Instr) : cmdWidthField (encode i) = i.width.code := by
  have := i.width.code_lt
  have := i.op.group_lt
  have := i.op.function_lt
  rw [cmdWidthField_eq, encode_toNat_eq_sum]
  omega

@[simp] theorem cmdGroupField_encode (i : Instr) : cmdGroupField (encode i) = i.op.group := by
  have := i.op.group_lt
  have := i.op.function_lt
  rw [cmdGroupField_eq, encode_toNat_eq_sum]
  omega

@[simp] theorem cmdFunctionField_encode (i : Instr) : cmdFunctionField (encode i) = i.op.function := by
  have := i.op.function_lt
  rw [cmdFunctionField_eq, encode_toNat_eq_sum]
  omega

/-- The three fields are the whole byte (R45): two bytes with the same fields are the same. -/
theorem byte_eq_of_fields {c d : Byte} (hw : cmdWidthField c = cmdWidthField d)
    (hg : cmdGroupField c = cmdGroupField d) (hf : cmdFunctionField c = cmdFunctionField d) : c = d := by
  have := c.isLt
  have := d.isLt
  rw [cmdWidthField_eq, cmdWidthField_eq] at hw
  rw [cmdGroupField_eq, cmdGroupField_eq] at hg
  rw [cmdFunctionField_eq, cmdFunctionField_eq] at hf
  apply BitVec.eq_of_toNat_eq
  omega

theorem Width.name_mem (w : Width) : w.name ∈ ["64", "128", "256"] := by cases w <;> decide

/-! ### The decoder's tables, in both directions -/

@[simp] theorem decodeWidth_code (w : Width) : decodeWidth w.code = .ok w := by cases w <;> rfl

@[simp] theorem decodeOp_group_function (op : Op) : decodeOp op.group op.function = .ok op := by cases op <;> rfl

/-- An operation is read only from its own group and function (R47, R49). -/
theorem decodeOp_eq_ok {g f : Nat} {op : Op} (h : decodeOp g f = .ok op) : op.group = g ∧ op.function = f := by
  unfold decodeOp at h
  split at h <;> cases h <;> exact ⟨rfl, rfl⟩

open Laws.LegalForm in
/-- The per-command facts of R49, for every command. -/
theorem legalForm : ∀ i : Instr, Statement i
  | .addw64 => addw64 | .addc64 => addc64 | .sub64 => sub64 | .mulw64 => mulw64 | .mulc64 => mulc64
  | .div64 => div64 | .rem64 => rem64 | .divrem64 => divrem64 | .sqrt64 => sqrt64 | .eq64 => eq64 | .lt64 => lt64
  | .lte64 => lte64 | .gt64 => gt64 | .gte64 => gte64 | .min64 => min64 | .max64 => max64 | .ismul64 => ismul64
  | .narrow128 => narrow128 | .addw128 => addw128 | .addc128 => addc128 | .sub128 => sub128 | .mulw128 => mulw128
  | .mulc128 => mulc128 | .div128 => div128 | .rem128 => rem128 | .divrem128 => divrem128 | .sqrt128 => sqrt128
  | .eq128 => eq128 | .lt128 => lt128 | .lte128 => lte128 | .gt128 => gt128 | .gte128 => gte128 | .min128 => min128
  | .max128 => max128 | .ismul128 => ismul128 | .zero128 => zero128 | .modulus128 => modulus128
  | .export256 => export256 | .narrow256 => narrow256 | .addc256 => addc256 | .sub256 => sub256
  | .mulc256 => mulc256 | .div256 => div256 | .rem256 => rem256 | .divrem256 => divrem256 | .sqrt256 => sqrt256
  | .eq256 => eq256 | .lt256 => lt256 | .lte256 => lte256 | .gt256 => gt256 | .gte256 => gte256 | .min256 => min256
  | .max256 => max256 | .ismul256 => ismul256 | .zero256 => zero256 | .modulus256 => modulus256

/-! ### Decoding and encoding -/

/-- The byte's fields select the command's own width and operation, and R49's map leads from these back to it. -/
theorem decode_encode (i : Instr) : decode (encode i) = .ok i := by
  obtain ⟨-, cell⟩ := legalForm i
  simp [decode, cell]

theorem decodeBytes_cons_of_ok {cmd : Byte} {i : Instr} (h : decode cmd = .ok i) (rest : List Byte) :
    decodeBytes (cmd :: rest) = .ok (i, rest) := by
  simp [decodeBytes, h]

/-- What decodes is the command's byte: the three fields agree. -/
theorem encode_of_decode {cmd : Byte} {i : Instr} (h : decode cmd = .ok i) : encode i = cmd := by
  obtain ⟨hw, hop, -⟩ := decode_eq_ok h
  obtain ⟨hg, hf⟩ := decodeOp_eq_ok hop
  apply byte_eq_of_fields
  · rw [cmdWidthField_encode, decodeWidth_eq_ok hw]
  · rw [cmdGroupField_encode, hg]
  · rw [cmdFunctionField_encode, hf]

/-! ### The obligations -/

/-- Settles O3: the encoder's fields are what the decoder's tables read, and the three fields are the whole byte. -/
theorem decodeAndEncodeAgree : Obligations.DecodeAndEncodeAgree := by
  unfold Obligations.DecodeAndEncodeAgree
  constructor
  · intro i _
    exact ⟨decode_encode i, decodeBytes_cons_of_ok (decode_encode i)⟩
  · intro cmd i h
    obtain ⟨legal, -⟩ := legalForm i
    exact ⟨legal, encode_of_decode h⟩

/-- Settles O1: the concatenation is the "or" of the shifted fields because each fits its bits. -/
theorem commandByteIsItsFields : Obligations.CommandByteIsItsFields :=
  ⟨encode_toNat, fun i => ⟨rfl, i.width.name_mem⟩, by decide, rfl, rfl, rfl, rfl⟩

/-- Settles O2: each byte is the one that the listed command encodes to. -/
theorem listedWordsDecode : Obligations.ListedWordsDecode :=
  ⟨decode_encode .export256, decode_encode .narrow128, decode_encode .addw128, decode_encode .sub256,
    decode_encode .mulc256, decode_encode .divrem64, decode_encode .sqrt128, decode_encode .ismul64,
    decode_encode .modulus256, rfl⟩

end Sys2Proof
end

section
/-! PROOFS. The conversions (R60 to R65): limbs and values turn into each other without loss, a command without a query
ends as the integers say, and the three obligations of the conversion family. -/

namespace Sys2Proof.Machine

/-! ### Splitting and joining (R60 to R62) -/

theorem toWide_getElem? {w n i : Nat} (v : BitVec w) (h : i < n) : (toWide n v)[i]? = some (limb v i) := by
  simp [toWide, h]

theorem limb_eq_ofNat {w : Nat} (v : BitVec w) (i : Nat) :
    limb v i = BitVec.ofNat 64 (v.toNat / 2 ^ (64 * i) % 2 ^ 64) :=
  limb_eq_of_digit (by rw [BitVec.toNat_ofNat, Nat.mod_mod])

/-- Digits in base `2^64` are unique. -/
theorem eq_of_limbsValue_eq {xs ys : List Limb} (len : xs.length = ys.length)
    (h : limbsValue xs = limbsValue ys) : xs = ys := by
  induction xs generalizing ys with
  | nil => exact (List.length_eq_zero_iff.1 len.symm).symm
  | cons x xs ih =>
    cases ys with
    | nil => simp at len
    | cons y ys =>
      have := x.isLt
      have := y.isLt
      simp only [limbsValue_cons] at h
      have digit : x = y := BitVec.eq_of_toNat_eq (by omega)
      have rest : xs = ys := ih (Nat.succ.inj len) (by omega)
      rw [digit, rest]

theorem fromWide_toWide (n : Nat) (v : BitVec (64 * n)) : fromWide (64 * n) (toWide n v) = v :=
  BitVec.eq_of_toNat_eq ((fromWide_toNat (toWide_length n v)).trans (limbsValue_toWide_all n v))

theorem toWide_fromWide (ls : List Limb) : toWide ls.length (fromWide (64 * ls.length) ls) = ls :=
  eq_of_limbsValue_eq (toWide_length _ _) (by rw [limbsValue_toWide_all, fromWide_toNat rfl])

/-! ### A command without a query -/

/-- Such a command ends, in any stage, with the values that `exactCall` gives. -/
theorem exec_endsWithValue {i : Instr} {s : State} {r0 r1 : Nat} (hq : i.op.queriesWitness = false)
    (hv : callVerdict i s = .value r0 r1) : EndsWithValue s (exec i s) r0 r1 := by
  have ends := (exec_concludes_call (s := s) (.inr hq)).endsAs
  rwa [hv] at ends

/-- Such a command ends, in any stage, in the fault that `exactCall` gives. -/
theorem exec_endsInFault {i : Instr} {s : State} {code : Nat} (hq : i.op.queriesWitness = false)
    (hv : callVerdict i s = .fault code) : EndsInFault s (exec i s) code := by
  have ends := (exec_concludes_call (s := s) (.inr hq)).endsAs
  rwa [hv] at ends

/-- The operand check of an operation that uses `a` alone passes (R51, D13). -/
theorem not_operandTooWide_of_lt {W a b : Nat} {op : Op} (fit : a < 2 ^ W) (hb : op.usesB = false) :
    ¬ OperandTooWide W a b op := by
  rintro (⟨-, wide⟩ | ⟨uses, -⟩)
  · exact Nat.not_le.2 fit wide
  · simp [hb] at uses

theorem exactCall_exportTo {E W a b : Nat} (fit : a < 2 ^ W) :
    exactCall E W a b .exportTo = if a < 2 ^ E then .value a 0 else .fault 8 := by
  rw [exactCall, if_neg (not_operandTooWide_of_lt fit rfl)]

theorem exactCall_narrow {E W a b : Nat} (fit : a < 2 ^ W) :
    exactCall E W a b .narrow = if a < 2 ^ (W / 2) then .value a 0 else .fault 8 := by
  rw [exactCall, if_neg (not_operandTooWide_of_lt fit rfl)]

/-! ### The obligations -/

/-- Settles O28: a value's limbs denote it, and two lists of as many limbs that denote the same value are the same. -/
theorem splittingAndJoiningLimbsAreInverse : Obligations.SplittingAndJoiningLimbsAreInverse :=
  ⟨fun _ v i h => (toWide_getElem? v h).trans (congrArg some (limb_eq_ofNat v i)),
    fun n v => ⟨fromWide_toWide n v, limbsValue_toWide_all n v⟩, toWide_fromWide⟩

/-- Settles O30: every bus is of width 256, so the limit `EXPORT_BITS` alone decides. -/
theorem exportPassesBelowTheLimit : Obligations.ExportPassesBelowTheLimit := by
  unfold Obligations.ExportPassesBelowTheLimit
  refine ⟨by decide, rfl, rfl, fun s => ⟨fun below => ?_, fun above => ?_⟩⟩
  · exact exec_endsWithValue rfl ((exactCall_exportTo s.A.isLt).trans (if_pos below))
  · exact exec_endsInFault rfl ((exactCall_exportTo s.A.isLt).trans (if_neg (Nat.not_lt.2 above)))

/-- Settles O31: the operand check comes first, then half the width decides. -/
theorem narrowPassesBelowHalfTheWidth : Obligations.NarrowPassesBelowHalfTheWidth := by
  unfold Obligations.NarrowPassesBelowHalfTheWidth
  refine ⟨by decide, by decide, rfl, fun s => ⟨fun below => ?_, fun above fit => ?_, fun wide => ?_,
    fun below => ?_, fun above => ?_⟩⟩
  · have fit : s.A.toNat < 2 ^ 128 := by omega
    exact exec_endsWithValue rfl ((exactCall_narrow fit).trans (if_pos below))
  · exact exec_endsInFault rfl ((exactCall_narrow fit).trans (if_neg (Nat.not_lt.2 above)))
  · exact exec_endsInFault rfl (exactCall_of_operandTooWide (.inl ⟨rfl, wide⟩))
  · exact exec_endsWithValue rfl ((exactCall_narrow s.A.isLt).trans (if_pos below))
  · exact exec_endsInFault rfl ((exactCall_narrow s.A.isLt).trans (if_neg (Nat.not_lt.2 above)))

end Sys2Proof.Machine
end

section
/-! PROOFS. Addition and subtraction (R70 to R82): the limb units and their chains as the rules state them, `ADDW`,
`ADDC` and `SUB` in any stage and at any of their widths, and the eight obligations of the family. -/

namespace Sys2Proof.Machine

/-! ### Borrows -/

/-- A subtractor whose difference `d` is below its weight `p` borrows exactly when the minuend `x` is below what is
subtracted, `y` (R71, R73). -/
theorem borrow_eq_one_iff {d p x y : Nat} {c : BitVec 1} (small : d < p) (difference : d + y = x + p * c.toNat) :
    c = 1 ↔ x < y := by
  rcases BitVec.eq_zero_or_eq_one c with rfl | rfl <;> simp at difference ⊢ <;> omega

/-! ### Operands against the integers -/

theorem not_operandTooWide_of_both_lt {W a b : Nat} {op : Op} (hA : a < 2 ^ W) (hB : b < 2 ^ W) :
    ¬ OperandTooWide W a b op := by
  rintro (⟨-, wide⟩ | ⟨-, wide⟩)
  · exact Nat.not_le.2 hA wide
  · exact Nat.not_le.2 hB wide

section Verdicts

variable {W a b : Nat} (E : Nat)

theorem exactCall_addw (hA : a < 2 ^ W) (hB : b < 2 ^ W) : exactCall E W a b .addw = .value (a + b) 0 := by
  rw [exactCall, if_neg (not_operandTooWide_of_both_lt hA hB)]

/-- The greatest value of the width is written `2^W - 1`, as R76 to R78 write it. -/
theorem exactCall_addc (hA : a < 2 ^ W) (hB : b < 2 ^ W) :
    exactCall E W a b .addc = if a + b ≤ 2 ^ W - 1 then .value (a + b) 0 else .fault 1 := by
  rw [exactCall, if_neg (not_operandTooWide_of_both_lt hA hB)]
  simp only [Nat.le_sub_one_iff_lt (Nat.two_pow_pos W)]

theorem exactCall_sub (hA : a < 2 ^ W) (hB : b < 2 ^ W) :
    exactCall E W a b .sub = if b ≤ a then .value (a - b) 0 else .fault 2 := by
  rw [exactCall, if_neg (not_operandTooWide_of_both_lt hA hB)]

/-- A checked sum is symmetric in the operands, the operand check included (R82). -/
theorem exactCall_addc_comm (W a b : Nat) : exactCall E W a b .addc = exactCall E W b a .addc := by
  simp only [exactCall, Op.usesA, Op.usesB, true_and, or_comm, Nat.add_comm]

/-- A checked sum is the sum, in which case it fits the width, or a fault. -/
theorem exactCall_addc_cases (W a b : Nat) :
    (a + b < 2 ^ W ∧ exactCall E W a b .addc = .value (a + b) 0) ∨
      ∃ code, exactCall E W a b .addc = .fault code := by
  by_cases wide : OperandTooWide W a b .addc
  · exact .inr ⟨10, exactCall_of_operandTooWide wide⟩
  · rw [exactCall, if_neg wide]
    by_cases fit : a + b < 2 ^ W
    · exact .inl ⟨fit, if_pos fit⟩
    · exact .inr ⟨1, if_neg fit⟩

end Verdicts

/-! ### The commands, in any stage and at any width -/

section Commands

variable {i : Instr} {s : State}

/-- R51, R192: a command that uses both operands and queries nothing ends in `OperandRange` on one too wide. -/
theorem exec_operandRange (hq : i.op.queriesWitness = false) (hua : i.op.usesA = true) (hub : i.op.usesB = true)
    (wide : 2 ^ i.width.bits ≤ s.A.toNat ∨ 2 ^ i.width.bits ≤ s.B.toNat) : EndsInFault s (exec i s) 10 :=
  exec_endsInFault hq (exactCall_of_operandTooWide (wide.imp (.intro hua) (.intro hub)))

/-- R74, R75. -/
theorem exec_addw (hop : i.op = .addw) (hA : s.A.toNat < 2 ^ i.width.bits) (hB : s.B.toNat < 2 ^ i.width.bits) :
    EndsWithValue s (exec i s) (s.A.toNat + s.B.toNat) 0 :=
  exec_endsWithValue (hop ▸ rfl) (by rw [callVerdict, hop, exactCall_addw _ hA hB])

/-- R76 to R78. -/
theorem exec_addc (hop : i.op = .addc) (hA : s.A.toNat < 2 ^ i.width.bits) (hB : s.B.toNat < 2 ^ i.width.bits) :
    (s.A.toNat + s.B.toNat ≤ 2 ^ i.width.bits - 1 → EndsWithValue s (exec i s) (s.A.toNat + s.B.toNat) 0) ∧
    (s.A.toNat + s.B.toNat > 2 ^ i.width.bits - 1 → EndsInFault s (exec i s) 1) := by
  have hq : i.op.queriesWitness = false := hop ▸ rfl
  constructor
  · intro fit
    exact exec_endsWithValue hq (by rw [callVerdict, hop, exactCall_addc _ hA hB, if_pos fit])
  · intro exceeds
    exact exec_endsInFault hq (by rw [callVerdict, hop, exactCall_addc _ hA hB, if_neg (Nat.not_le.2 exceeds)])

/-- R79 to R81. -/
theorem exec_sub (hop : i.op = .sub) (hA : s.A.toNat < 2 ^ i.width.bits) (hB : s.B.toNat < 2 ^ i.width.bits) :
    (s.B.toNat ≤ s.A.toNat → EndsWithValue s (exec i s) (s.A.toNat - s.B.toNat) 0) ∧
    (s.A.toNat < s.B.toNat → EndsInFault s (exec i s) 2) := by
  have hq : i.op.queriesWitness = false := hop ▸ rfl
  constructor
  · intro fit
    exact exec_endsWithValue hq (by rw [callVerdict, hop, exactCall_sub _ hA hB, if_pos fit])
  · intro less
    exact exec_endsInFault hq (by rw [callVerdict, hop, exactCall_sub _ hA hB, if_neg (Nat.not_le.2 less)])

/-! ### The laws of R82 -/

/-- `ADDC` ends the call: it waits for no answer, and with code 0 it has the sum, which fits the width. -/
theorem exec_addc_next {t : State} (hop : i.op = .addc) (h : exec i s = .next t) :
    t.stage = .done ∧ t.B = s.B ∧
      (t.CODE = 0 → t.RES0.toNat = s.A.toNat + s.B.toNat ∧ s.A.toNat + s.B.toNat < 2 ^ i.width.bits) := by
  have concludes := exec_concludes_call (i := i) (s := s) (.inr (hop ▸ rfl))
  rw [h, callVerdict, hop] at concludes
  rcases exactCall_addc_cases s.cfg.exportBits i.width.bits s.A.toNat s.B.toNat with ⟨fit, verdict⟩ | ⟨code, verdict⟩
  · rw [verdict] at concludes
    rcases concludes.next_cases with ⟨r0, r1, rfl, value⟩ | ⟨k, -, ⟨⟩⟩ | ⟨-, ⟨⟩⟩
    exact ⟨rfl, rfl, fun _ => ⟨(Verdict.value.inj value).1.symm, fit⟩⟩
  · rw [verdict] at concludes
    rcases concludes.next_cases with ⟨r0, r1, -, ⟨⟩⟩ | ⟨k, rfl, -⟩ | ⟨-, ⟨⟩⟩
    exact ⟨rfl, rfl, fun zero => absurd zero k.code_ne_zero⟩

/-- Both orders of the operands conclude by the same verdict. -/
theorem exec_addc_comm {t u : State} (hop : i.op = .addc) (h : exec i s = .next t)
    (hswap : exec i { s with A := s.B, B := s.A } = .next u) :
    u.CODE = t.CODE ∧ (t.CODE = 0 → u.RES0 = t.RES0 ∧ u.RES1 = t.RES1) := by
  have hq : i.op.queriesWitness = false := hop ▸ rfl
  have concludes := exec_concludes_call (i := i) (s := s) (.inr hq)
  have swapped := exec_concludes_call (i := i) (s := { s with A := s.B, B := s.A }) (.inr hq)
  have verdict : callVerdict i { s with A := s.B, B := s.A } = callVerdict i s := by
    rw [callVerdict, callVerdict, hop, exactCall_addc_comm]
  rw [h] at concludes
  rw [hswap, verdict] at swapped
  obtain ⟨done, -⟩ := exec_addc_next hop h
  exact (concludes.same_outcome swapped).2 done

/-- A sum that fits the width is an operand of the width, and not less than the addend. -/
theorem exec_sub_of_addc {j : Instr} {t : State} (hadd : i.op = .addc) (hsub : j.op = .sub)
    (hw : j.width = i.width) (h : exec i s = .next t) (hc : t.CODE = 0) :
    EndsWithValue { t with A := t.RES0 } (exec j { t with A := t.RES0 }) s.A.toNat 0 := by
  obtain ⟨-, hB, outcome⟩ := exec_addc_next hadd h
  obtain ⟨sum, fit⟩ := outcome hc
  have minuend : t.RES0.toNat < 2 ^ j.width.bits := by rw [hw, sum]; exact fit
  have addend : t.B.toNat ≤ t.RES0.toNat := by rw [hB, sum]; exact Nat.le_add_left ..
  have difference : t.RES0.toNat - t.B.toNat = s.A.toNat := by rw [hB, sum, Nat.add_sub_cancel]
  rw [← difference]
  exact (exec_sub (s := { t with A := t.RES0 }) hsub minuend (addend.trans_lt minuend)).1 addend

end Commands

/-! ### The obligations -/

/-- Settles O19: the sum and the carry are the remainder and the quotient of the total. -/
theorem limbAdderIsExact : Obligations.LimbAdderIsExact := by
  unfold Obligations.LimbAdderIsExact
  intro x y cin
  obtain ⟨carry, sum⟩ := (Nat.div_mod_unique (Nat.two_pow_pos 64)).2 ⟨adc64_exact x y cin, (adc64 x y cin).1.isLt⟩
  have hx := x.isLt
  have hy := y.isLt
  have hcin := cin.isLt
  exact ⟨sum.symm, carry.symm, by omega⟩

/-- Settles O20: the borrow restores a negative difference, which lies in a limb. -/
theorem limbSubtractorIsExact : Obligations.LimbSubtractorIsExact := by
  unfold Obligations.LimbSubtractorIsExact
  intro x y bin
  have difference := sbb64_exact x y bin
  have borrow := borrow_eq_one_iff (sbb64 x y bin).1.isLt ((Nat.add_assoc ..).symm.trans difference)
  constructor
  · rw [borrow]
    omega
  · omega

/-- Settles O21. -/
theorem carryChainIsExact : Obligations.CarryChainIsExact := by
  unfold Obligations.CarryChainIsExact
  intro n a b
  rw [← addN_exact n a b, Nat.add_comm, Nat.mul_comm]

/-- Settles O22: the equation over the natural numbers, read over the integers. -/
theorem borrowChainIsExact : Obligations.BorrowChainIsExact := by
  unfold Obligations.BorrowChainIsExact
  intro n a b
  have difference := subN_exact n a b
  refine ⟨?_, borrow_eq_one_iff (subN n a b).1.isLt difference⟩
  have integers := congrArg (Nat.cast (R := Int)) difference
  push_cast at integers
  linear_combination -integers

/-- Settles O32: the widening sum at its two widths. -/
theorem wideningAddIsExact : Obligations.WideningAddIsExact := by
  unfold Obligations.WideningAddIsExact
  refine ⟨by decide, by decide, fun s => ⟨?_, ?_, ?_, ?_⟩⟩
  · exact exec_addw (i := .addw64) rfl
  · exact exec_operandRange (i := .addw64) rfl rfl rfl
  · exact exec_addw (i := .addw128) rfl
  · exact exec_operandRange (i := .addw128) rfl rfl rfl

/-- Settles O33: the checked sum at the three widths; every bus is of width 256. -/
theorem checkedAddIsExactOrOverflows : Obligations.CheckedAddIsExactOrOverflows := by
  unfold Obligations.CheckedAddIsExactOrOverflows
  refine ⟨by decide, by decide, by decide, fun s => ⟨?_, ?_, ?_, ?_, ?_⟩⟩
  · exact exec_addc (i := .addc64) rfl
  · exact exec_operandRange (i := .addc64) rfl rfl rfl
  · exact exec_addc (i := .addc128) rfl
  · exact exec_operandRange (i := .addc128) rfl rfl rfl
  · exact exec_addc (i := .addc256) rfl s.A.isLt s.B.isLt

/-- Settles O34: the checked difference at the three widths; every bus is of width 256. -/
theorem checkedSubIsExactOrUnderflows : Obligations.CheckedSubIsExactOrUnderflows := by
  unfold Obligations.CheckedSubIsExactOrUnderflows
  refine ⟨by decide, by decide, by decide, fun s => ⟨?_, ?_, ?_, ?_, ?_⟩⟩
  · exact exec_sub (i := .sub64) rfl
  · exact exec_operandRange (i := .sub64) rfl rfl rfl
  · exact exec_sub (i := .sub128) rfl
  · exact exec_operandRange (i := .sub128) rfl rfl rfl
  · exact exec_sub (i := .sub256) rfl s.A.isLt s.B.isLt

/-- Settles O51: each of the three pairs is an `ADDC` and a `SUB` of one width. -/
theorem additionCommutesAndSubtractionInverts : Obligations.AdditionCommutesAndSubtractionInverts := by
  unfold Obligations.AdditionCommutesAndSubtractionInverts
  have pairs : ∀ p ∈ [(Instr.addc64, Instr.sub64), (.addc128, .sub128), (.addc256, .sub256)],
      p.1.op = .addc ∧ p.2.op = .sub ∧ p.2.width = p.1.width := by decide
  intro p hp s t u
  obtain ⟨hadd, hsub, hw⟩ := pairs p hp
  exact ⟨exec_addc_comm hadd, exec_sub_of_addc hadd hsub hw⟩

end Sys2Proof.Machine
end

section
/-! PROOFS. Multiplication (R90 to R98): the limb multiplier and its cascades as the rules state them, `MULW` and `MULC`
in any stage and at any of their widths, a division call and its answer taken together as two steps, and the five
obligations of the family. -/

namespace Sys2Proof.Machine

/-! ### Operands against the integers -/

section Verdicts

variable {W a b : Nat} (E : Nat)

theorem exactCall_mulw (hA : a < 2 ^ W) (hB : b < 2 ^ W) : exactCall E W a b .mulw = .value (a * b) 0 := by
  rw [exactCall, if_neg (not_operandTooWide_of_both_lt hA hB)]

/-- The greatest value of the width is written `2^W - 1`, as R95 to R97 write it. -/
theorem exactCall_mulc (hA : a < 2 ^ W) (hB : b < 2 ^ W) :
    exactCall E W a b .mulc = if a * b ≤ 2 ^ W - 1 then .value (a * b) 0 else .fault 1 := by
  rw [exactCall, if_neg (not_operandTooWide_of_both_lt hA hB)]
  simp only [Nat.le_sub_one_iff_lt (Nat.two_pow_pos W)]

/-- A checked product that is not a fault has factors of the width and fits it. -/
theorem exactCall_mulc_eq_value {r0 r1 : Nat} (h : exactCall E W a b .mulc = .value r0 r1) :
    b < 2 ^ W ∧ a * b < 2 ^ W ∧ r0 = a * b := by
  by_cases wide : OperandTooWide W a b .mulc
  · rw [exactCall_of_operandTooWide wide] at h
    cases h
  · have hB : b < 2 ^ W := Nat.not_le.1 fun large => wide (.inr ⟨rfl, large⟩)
    rw [exactCall, if_neg wide] at h
    by_cases fit : a * b < 2 ^ W
    · rw [if_pos fit] at h
      exact ⟨hB, fit, (Verdict.value.inj h).1.symm⟩
    · rw [if_neg fit] at h
      cases h

/-- `div_start` (R105) rejects nothing but a zero divisor once both operands are of the width. -/
theorem exactCall_eq_query_of_divides {op : Op} (hd : op.dividesByWitness = true) (hA : a < 2 ^ W) (hB : b < 2 ^ W)
    (hb : b ≠ 0) : exactCall E W a b op = .query := by
  have verdict := exactCall_of_dividesByWitness (E := E) (a := BitVec.ofNatLT a hA) (b := BitVec.ofNatLT b hB) hd
  simpa only [BitVec.toNat_ofNatLT, if_neg hb] using verdict

/-- The division theorem passes both tests of R106. -/
theorem divided_of_div_mod (hb : b ≠ 0) (r0 r1 : Nat) :
    exactAnswer.divided a b (a / b) (a % b) r0 r1 = .value r0 r1 := by
  have bound : a % b < b := Nat.mod_lt a (Nat.pos_of_ne_zero hb)
  rw [exactAnswer.divided, if_neg (Nat.not_le.2 bound), if_neg (not_not.2 (Nat.div_add_mod' a b))]

end Verdicts

/-! ### The verdict and the outcome registers -/

/-- A call that is over with code 0 ended in a value, and the result registers hold it. -/
theorem Concludes.verdict_of_code_zero {s t : State} {v : Verdict} (h : Concludes s (.next t) v)
    (done : t.stage = .done) (zero : t.CODE = 0) : v = .value t.RES0.toNat t.RES1.toNat := by
  rcases h.next_cases with ⟨r0, r1, rfl, verdict⟩ | ⟨k, rfl, -⟩ | ⟨rfl, -⟩
  · exact verdict
  · exact absurd zero k.code_ne_zero
  · cases done

/-- A call whose verdict is a value ends with code 0 and that value. -/
theorem Concludes.outcome_of_value {s t : State} {n0 n1 : Nat} (h : Concludes s (.next t) (.value n0 n1)) :
    t.CODE = 0 ∧ t.RES0.toNat = n0 ∧ t.RES1.toNat = n1 := by
  cases h
  exact ⟨rfl, rfl, rfl⟩

theorem Concludes.eq_query {s : State} {out : Out} (h : Concludes s out .query) : out = .next s.query := by
  cases h
  rfl

/-! ### The commands, in any stage and at any width -/

section Commands

variable {i : Instr} {s : State}

/-- R93, R94. -/
theorem exec_mulw (hop : i.op = .mulw) (hA : s.A.toNat < 2 ^ i.width.bits) (hB : s.B.toNat < 2 ^ i.width.bits) :
    EndsWithValue s (exec i s) (s.A.toNat * s.B.toNat) 0 :=
  exec_endsWithValue (hop ▸ rfl) (by rw [callVerdict, hop, exactCall_mulw _ hA hB])

/-- R95 to R97. -/
theorem exec_mulc (hop : i.op = .mulc) (hA : s.A.toNat < 2 ^ i.width.bits) (hB : s.B.toNat < 2 ^ i.width.bits) :
    (s.A.toNat * s.B.toNat ≤ 2 ^ i.width.bits - 1 → EndsWithValue s (exec i s) (s.A.toNat * s.B.toNat) 0) ∧
    (s.A.toNat * s.B.toNat > 2 ^ i.width.bits - 1 → EndsInFault s (exec i s) 1) := by
  have hq : i.op.queriesWitness = false := hop ▸ rfl
  have verdict : callVerdict i s =
      if s.A.toNat * s.B.toNat ≤ 2 ^ i.width.bits - 1 then .value (s.A.toNat * s.B.toNat) 0 else .fault 1 := by
    rw [callVerdict, hop, exactCall_mulc _ hA hB]
  exact ⟨fun fit => exec_endsWithValue hq (verdict.trans (if_pos fit)),
    fun exceeds => exec_endsInFault hq (verdict.trans (if_neg (Nat.not_le.2 exceeds)))⟩

/-- `MULC` that ended with code 0 left the product, which fits the width as the second factor does. -/
theorem exec_mulc_of_code_zero {t : State} (hop : i.op = .mulc) (h : exec i s = .next t) (done : t.stage = .done)
    (zero : t.CODE = 0) :
    s.B.toNat < 2 ^ i.width.bits ∧ t.RES0.toNat < 2 ^ i.width.bits ∧ t.RES0.toNat = s.A.toNat * s.B.toNat := by
  have concludes := exec_concludes_call (i := i) (s := s) (.inr (hop ▸ rfl))
  rw [h, callVerdict, hop] at concludes
  obtain ⟨factor, fit, product⟩ := exactCall_mulc_eq_value _ (concludes.verdict_of_code_zero done zero)
  exact ⟨factor, product ▸ fit, product⟩

/-! ### A query and its answer -/

theorem run_two_of_steps {m t : State} (first : step s = .next m) (second : step m = .next t) :
    Host.Core.run core 2 s = .next t := by
  simp only [Host.Core.run, core, first, second]

/-- R105: a division call with operands of the width and a divisor that is not zero latches them and queries. -/
theorem step_division_call_queries {a b : Bus} {rest : List PortEvent} (hd : i.op.dividesByWitness = true)
    (ready : s.stage ≠ .query) (hi : s.inputs = .call (encode i) a b :: rest)
    (hA : a.toNat < 2 ^ i.width.bits) (hB : b.toNat < 2 ^ i.width.bits) (hb : b.toNat ≠ 0) :
    step s = .next (accepted s (encode i) a b rest).query := by
  have called := step_call_concludes ready hi
  rw [latchedVerdict_of_ok (s := accepted s (encode i) a b rest) (decode_encode i), callVerdict] at called
  have verdict : exactCall s.cfg.exportBits i.width.bits a.toNat b.toNat i.op = .query :=
    exactCall_eq_query_of_divides _ hd hA hB hb
  exact Concludes.eq_query (verdict ▸ called)

/-- R105, R106: a division call that queries and the answer to it are two steps, which conclude from the latched call
as the integers say of that answer. -/
theorem run_division {a b wq wr : Bus} {rest : List PortEvent} (hd : i.op.dividesByWitness = true)
    (ready : s.stage ≠ .query) (hi : s.inputs = .call (encode i) a b :: .answer wq wr :: rest)
    (hA : a.toNat < 2 ^ i.width.bits) (hB : b.toNat < 2 ^ i.width.bits) (hb : b.toNat ≠ 0) :
    ∃ t, Host.Core.run core 2 s = .next t ∧
      Concludes (accepted s (encode i) a b rest).query (.next t)
        (exactAnswer a.toNat b.toNat wq.toNat wr.toNat i.op) := by
  have called := step_division_call_queries hd ready hi hA hB hb
  have answered := step_answer_concludes (s := (accepted s (encode i) a b (.answer wq wr :: rest)).query)
    rfl rfl (decode_encode i) (by simp [Op.queriesWitness, hd])
  obtain ⟨t, second⟩ := answered.exists_next
  exact ⟨t, run_two_of_steps called second, second ▸ answered⟩

/-- R119 for `DIV`: the honest answer to a call that queries gives the quotient. -/
theorem run_honest_div {a b : Bus} {rest : List PortEvent} (hop : i.op = .div) (ready : s.stage ≠ .query)
    (hi : s.inputs = .call (encode i) a b :: .answer (honestDivision a b).1 (honestDivision a b).2 :: rest)
    (hA : a.toNat < 2 ^ i.width.bits) (hB : b.toNat < 2 ^ i.width.bits) (hb : b.toNat ≠ 0) :
    ∃ t, Host.Core.run core 2 s = .next t ∧ t.CODE = 0 ∧ t.RES0.toNat = a.toNat / b.toNat := by
  obtain ⟨t, run, concludes⟩ := run_division (hop ▸ rfl) ready hi hA hB hb
  have verdict : exactAnswer a.toNat b.toNat (honestDivision a b).1.toNat (honestDivision a b).2.toNat i.op =
      .value (a.toNat / b.toNat) 0 := by
    rw [hop, exactAnswer, honestDivision, BitVec.toNat_udiv, BitVec.toNat_umod, divided_of_div_mod hb]
  rw [verdict] at concludes
  obtain ⟨code, quotient, -⟩ := concludes.outcome_of_value
  exact ⟨t, run, code, quotient⟩

end Commands

/-! ### The obligations -/

/-- Settles O23: the halves are the remainder and the quotient of the product, and the largest product bounds the high
one. -/
theorem limbMultiplierIsExact : Obligations.LimbMultiplierIsExact := by
  unfold Obligations.LimbMultiplierIsExact
  intro x y
  have halves := mul64_exact x y
  obtain ⟨high, low⟩ := (Nat.div_mod_unique (Nat.two_pow_pos 64)).2 ⟨halves, (mul64 x y).1.isLt⟩
  have largest : x.toNat * y.toNat ≤ (2 ^ 64 - 1) * (2 ^ 64 - 1) :=
    Nat.mul_le_mul (Nat.le_sub_one_of_lt x.isLt) (Nat.le_sub_one_of_lt y.isLt)
  exact ⟨low.symm, high.symm, by omega⟩

/-- Settles O24. -/
theorem cascadedMultipliersAreExact : Obligations.CascadedMultipliersAreExact :=
  ⟨mulwide128_exact, mulwide256_exact, mulwide_exact⟩

/-- Settles O35: the widening product at its two widths. -/
theorem wideningMultiplyIsExact : Obligations.WideningMultiplyIsExact := by
  unfold Obligations.WideningMultiplyIsExact
  refine ⟨by decide, by decide, fun s => ⟨?_, ?_, ?_, ?_⟩⟩
  · exact exec_mulw (i := .mulw64) rfl
  · exact exec_operandRange (i := .mulw64) rfl rfl rfl
  · exact exec_mulw (i := .mulw128) rfl
  · exact exec_operandRange (i := .mulw128) rfl rfl rfl

/-- Settles O36: the checked product at the three widths; every bus is of width 256. -/
theorem checkedMultiplyIsExactOrOverflows : Obligations.CheckedMultiplyIsExactOrOverflows := by
  unfold Obligations.CheckedMultiplyIsExactOrOverflows
  refine ⟨by decide, by decide, by decide, fun s => ⟨?_, ?_, ?_, ?_, ?_⟩⟩
  · exact exec_mulc (i := .mulc64) rfl
  · exact exec_operandRange (i := .mulc64) rfl rfl rfl
  · exact exec_mulc (i := .mulc128) rfl
  · exact exec_operandRange (i := .mulc128) rfl rfl rfl
  · exact exec_mulc (i := .mulc256) rfl s.A.isLt s.B.isLt

/-- Settles O52: each of the three pairs is a `MULC` and a `DIV` of one width, and the product and the factor that
`MULC` accepted are operands of that width. -/
theorem divisionInvertsMultiplication : Obligations.DivisionInvertsMultiplication := by
  unfold Obligations.DivisionInvertsMultiplication
  have pairs : ∀ p ∈ [(Instr.mulc64, Instr.div64), (.mulc128, .div128), (.mulc256, .div256)],
      p.1.op = .mulc ∧ p.2.op = .div ∧ p.2.width = p.1.width := by decide
  intro p hp s t rest h zero done nonzero
  obtain ⟨hmul, hdiv, hw⟩ := pairs p hp
  obtain ⟨factor, fit, product⟩ := exec_mulc_of_code_zero hmul h done zero
  rw [← hw] at factor fit
  have ready : t.stage ≠ .query := by simp [done]
  obtain ⟨u, run, code, quotient⟩ := run_honest_div
    (s := { t with inputs := .call _ _ _ :: .answer _ _ :: rest }) hdiv ready rfl fit factor nonzero
  have inverse : u.RES0.toNat = s.A.toNat := by
    rw [quotient, product, Nat.mul_div_cancel _ (Nat.pos_of_ne_zero nonzero)]
  exact ⟨u, run, code, BitVec.eq_of_toNat_eq inverse⟩

end Sys2Proof.Machine
end

section
/-! PROOFS. Division (R105 to R119): the limb datapath of the verifier against the integers, a division call and the
answer to it at any width, the honest answer as the only accepted one, and the four obligations of the family. -/

namespace Sys2Proof.Machine

/-! ### The datapath of the verifier (R109) -/

theorem wideBits_eq_limbs : (w : Width) → w.wideBits = 64 * (2 * w.limbs)
  | .w64 | .w128 | .w256 => rfl

/-- R72 on a width that is written otherwise than as a number of limbs. -/
theorem addN_exact_of_width {m n : Nat} (h : m = 64 * n) (x y : BitVec m) :
    (addN n x y).1.toNat + 2 ^ m * (addN n x y).2.toNat = x.toNat + y.toNat := by
  subst h
  exact addN_exact n x y

/-- A sum that fits the product bus has no carry out. -/
theorem addN_wide_of_lt {w : Width} {x y : BitVec w.wideBits} (fit : x.toNat + y.toNat < 2 ^ w.wideBits) :
    (addN (2 * w.limbs) x y).2 = 0 ∧ (addN (2 * w.limbs) x y).1.toNat = x.toNat + y.toNat := by
  have sum := addN_exact_of_width (wideBits_eq_limbs w) x y
  rcases BitVec.eq_zero_or_eq_one (addN (2 * w.limbs) x y).2 with c | c <;> simp [c] at sum ⊢ <;> omega

/-- An upper part of zeros and a lower part `a` are the value `a`. -/
theorem parts_eq_iff {m n : Nat} (v : BitVec m) (a : BitVec n) :
    v >>> n = 0 ∧ (v.setWidth n).toNat = a.toNat ↔ v.toNat = a.toNat := by
  rw [← BitVec.toNat_inj, BitVec.toNat_ushiftRight, BitVec.toNat_setWidth, Nat.shiftRight_eq_div_pow]
  constructor
  · rintro ⟨upper, lower⟩
    rw [← Nat.div_add_mod v.toNat (2 ^ n), upper, lower]
    simp
  · intro h
    rw [h, Nat.div_eq_of_lt a.isLt, Nat.mod_eq_of_lt a.isLt]
    simp

/-- With the remainder below the divisor, product and remainder fit the product bus: R109 has no carry out. -/
theorem reconstruction_lt_wide {w : Width} {b wq wr : Nat} (hb : b < 2 ^ w.bits) (hq : wq < 2 ^ w.bits)
    (bound : wr < b) : wq * b + wr < 2 ^ w.wideBits := by
  rw [wideBits_eq_double, pow_add]
  calc wq * b + wr < (wq + 1) * b := by rw [Nat.add_one_mul]; exact Nat.add_lt_add_left bound _
    _ ≤ 2 ^ w.bits * 2 ^ w.bits := Nat.mul_le_mul hq hb.le

/-- R109 for a candidate quotient of the width: its three tests are one equation over the integers. -/
theorem reconOk_iff_of_fits {w : Width} {a b wq wr : Bus} (ha : a.toNat < 2 ^ w.bits) (hb : b.toNat < 2 ^ w.bits)
    (hq : wq.toNat < 2 ^ w.bits) (bound : wr.toNat < b.toNat) :
    reconOk w a b wq wr = true ↔ wq.toNat * b.toNat + wr.toNat = a.toNat := by
  have product : (mulwide w (wq.setWidth w.bits) (b.setWidth w.bits)).toNat = wq.toNat * b.toNat := by
    rw [mulwide_exact, setWidth_toNat_of_lt hq, setWidth_toNat_of_lt hb]
  have remainder : ((wr.setWidth w.bits).setWidth w.wideBits).toNat = wr.toNat := by
    rw [BitVec.toNat_setWidth_of_le (by rw [wideBits_eq_double]; exact Nat.le_add_left ..),
      setWidth_toNat_of_lt (bound.trans hb)]
  obtain ⟨carry, sum⟩ := addN_wide_of_lt (product ▸ remainder ▸ reconstruction_lt_wide hb hq bound)
  rw [product, remainder] at sum
  simp only [reconOk, (fits_iff _ _).2 hq, if_true, carry, decide_true, Bool.true_and, eqN_width,
    Bool.and_eq_true, decide_eq_true_eq]
  rw [parts_eq_iff, sum, setWidth_toNat_of_lt ha]

/-- R109: a candidate quotient too wide for the width is refused. -/
theorem reconOk_of_not_fits {w : Width} {a b wq wr : Bus} (hq : ¬ wq.toNat < 2 ^ w.bits) :
    reconOk w a b wq wr = false :=
  if_neg (mt (fits_iff _ _).1 hq)

/-! ### The call (R105) -/

/-- Field `W` of a command's byte, as the witness port drives it (R25, R48). -/
theorem encode_width_bits (i : Instr) : (encode i).extractLsb' 6 2 = BitVec.ofNat 2 i.width.code := by
  rw [← width_code_of_decode (decode_encode i), BitVec.ofNat_toNat, BitVec.setWidth_eq]

/-- An accepted call of a command ends as the integers say of the operands it carries. -/
theorem step_call_endsAs {i : Instr} {s : State} {a b : Bus} {rest : List PortEvent} (ready : s.stage ≠ .query)
    (hi : s.inputs = .call (encode i) a b :: rest) :
    EndsAs (accepted s (encode i) a b rest) (step s)
      (exactCall s.cfg.exportBits i.width.bits a.toNat b.toNat i.op) :=
  everyCallAgreesWithIntegerArithmetic s (encode i) a b rest i ready hi (decode_encode i)

/-- `div_start` (R105) rejects a zero divisor whatever the dividend of the width. -/
theorem exactCall_eq_fault_of_zero_divisor {E W a : Nat} {op : Op} (hd : op.dividesByWitness = true)
    (hA : a < 2 ^ W) : exactCall E W a 0 op = .fault 3 := by
  have verdict := exactCall_of_dividesByWitness (E := E) (a := BitVec.ofNatLT a hA) (b := 0#W) hd
  simpa using verdict

/-! ### The answer (R106) -/

/-- The result arms of R106 over the integers: what a division command ends with on an accepted answer. Any
operation that is not one of the other three is read as `DIV`. -/
def divisionResult (op : Op) (wq wr : Nat) : Nat × Nat :=
  match op with
  | .rem => (wr, 0)
  | .divrem => (wq, wr)
  | .ismul => (if wr = 0 then 1 else 0, 0)
  | _ => (wq, 0)

/-- The four division operations differ in their results alone. -/
theorem exactAnswer_of_divides {a b wq wr : Nat} {op : Op} (hd : op.dividesByWitness = true) :
    exactAnswer a b wq wr op =
      exactAnswer.divided a b wq wr (divisionResult op wq wr).1 (divisionResult op wq wr).2 := by
  cases op with
  | div | rem | divrem => rfl
  | ismul => simp [exactAnswer, divisionResult, bit]
  | _ => cases hd

section Verdicts

variable {a b wq wr : Nat} {op : Op} (hd : op.dividesByWitness = true)
include hd

theorem exactAnswer_eq_value (bound : wr < b) (product : wq * b + wr = a) :
    exactAnswer a b wq wr op = .value (divisionResult op wq wr).1 (divisionResult op wq wr).2 := by
  rw [exactAnswer_of_divides hd, exactAnswer.divided, if_neg (Nat.not_le.2 bound), if_neg (not_not.2 product)]

theorem exactAnswer_eq_remainderOutOfRange (large : b ≤ wr) : exactAnswer a b wq wr op = .fault 4 := by
  rw [exactAnswer_of_divides hd, exactAnswer.divided, if_pos large]

theorem exactAnswer_eq_divisionInvalid (bound : wr < b) (product : wq * b + wr ≠ a) :
    exactAnswer a b wq wr op = .fault 5 := by
  rw [exactAnswer_of_divides hd, exactAnswer.divided, if_neg (Nat.not_le.2 bound), if_pos product]

end Verdicts

/-- A call whose verdict is a fault ends with its code. -/
theorem Concludes.code_of_fault {s t : State} {code : Nat} (h : Concludes s (.next t) (.fault code)) :
    t.CODE.toNat = code := by
  cases h
  rfl

/-- In `QUERY` a witness-verified command ends as the integers say of the answer it takes. -/
theorem exec_answer_endsAs {i : Instr} {s : State} {wq wr : Bus} {rest : List PortEvent}
    (hw : i.op.queriesWitness = true) (hq : s.stage = .query) (hi : s.inputs = .answer wq wr :: rest) :
    EndsAs { s with inputs := rest } (exec i s) (exactAnswer s.A.toNat s.B.toNat wq.toNat wr.toNat i.op) := by
  rw [← passEvent_eq hi]
  exact (exec_concludes_answer hw hq hi).endsAs

section Answers

variable {i : Instr} {s : State} {wq wr : Bus} {rest : List PortEvent} (hd : i.op.dividesByWitness = true)
  (hq : s.stage = .query) (hi : s.inputs = .answer wq wr :: rest)
include hd hq hi

theorem exec_division_accepts (bound : wr.toNat < s.B.toNat)
    (product : wq.toNat * s.B.toNat + wr.toNat = s.A.toNat) :
    EndsWithValue { s with inputs := rest } (exec i s)
      (divisionResult i.op wq.toNat wr.toNat).1 (divisionResult i.op wq.toNat wr.toNat).2 := by
  have ends := exec_answer_endsAs (Op.queriesWitness_iff.2 (.inl hd)) hq hi
  rwa [exactAnswer_eq_value hd bound product] at ends

theorem exec_division_remainderOutOfRange (large : s.B.toNat ≤ wr.toNat) :
    EndsInFault { s with inputs := rest } (exec i s) 4 := by
  have ends := exec_answer_endsAs (Op.queriesWitness_iff.2 (.inl hd)) hq hi
  rwa [exactAnswer_eq_remainderOutOfRange hd large] at ends

theorem exec_division_divisionInvalid (bound : wr.toNat < s.B.toNat)
    (product : wq.toNat * s.B.toNat + wr.toNat ≠ s.A.toNat) :
    EndsInFault { s with inputs := rest } (exec i s) 5 := by
  have ends := exec_answer_endsAs (Op.queriesWitness_iff.2 (.inl hd)) hq hi
  rwa [exactAnswer_eq_divisionInvalid hd bound product] at ends

end Answers

/-! ### The honest answer (R119) -/

/-- The division theorem: the honest answer is the only one that passes both tests of R106. -/
theorem eq_honestDivision_iff {a b wq wr : Bus} (hb : b.toNat ≠ 0) :
    (wq, wr) = honestDivision a b ↔ wr.toNat < b.toNat ∧ wq.toNat * b.toNat + wr.toNat = a.toNat := by
  have unique := Nat.div_mod_unique (a := a.toNat) (c := wr.toNat) (d := wq.toNat) (Nat.pos_of_ne_zero hb)
  rw [honestDivision, Prod.mk.injEq, ← BitVec.toNat_inj, ← BitVec.toNat_inj, BitVec.toNat_udiv, BitVec.toNat_umod,
    eq_comm, eq_comm (a := wr.toNat), unique, and_comm, Nat.add_comm, Nat.mul_comm]

/-- Any other answer is refused, by the one test or the other. -/
theorem exactAnswer_of_not_honest {a b wq wr : Bus} {op : Op} (hd : op.dividesByWitness = true) (hb : b.toNat ≠ 0)
    (dishonest : (wq, wr) ≠ honestDivision a b) :
    exactAnswer a.toNat b.toNat wq.toNat wr.toNat op = .fault 4 ∨
      exactAnswer a.toNat b.toNat wq.toNat wr.toNat op = .fault 5 := by
  by_cases bound : wr.toNat < b.toNat
  · have product := fun product => dishonest ((eq_honestDivision_iff hb).2 ⟨bound, product⟩)
    exact .inr (exactAnswer_eq_divisionInvalid hd bound product)
  · exact .inl (exactAnswer_eq_remainderOutOfRange hd (Nat.not_lt.1 bound))

/-- The honest answer is accepted, with the results of the true quotient and remainder. -/
theorem exactAnswer_of_honest {a b wq wr : Bus} {op : Op} (hd : op.dividesByWitness = true) (hb : b.toNat ≠ 0)
    (honest : (wq, wr) = honestDivision a b) :
    exactAnswer a.toNat b.toNat wq.toNat wr.toNat op =
      .value (divisionResult op (a.toNat / b.toNat) (a.toNat % b.toNat)).1
        (divisionResult op (a.toNat / b.toNat) (a.toNat % b.toNat)).2 := by
  obtain ⟨bound, product⟩ := (eq_honestDivision_iff hb).1 honest
  rw [honestDivision, Prod.mk.injEq] at honest
  obtain ⟨rfl, rfl⟩ := honest
  rw [exactAnswer_eq_value hd bound product, BitVec.toNat_udiv, BitVec.toNat_umod]

/-- What the results of a division are for the true quotient and remainder: for `ISMUL`, whether the divisor divides
the dividend (R119, R162). -/
theorem divisionResult_true {op : Op} {a b : Nat} {r0 r1 : Bus} (h0 : r0.toNat = (divisionResult op (a / b) (a % b)).1)
    (h1 : r1.toNat = (divisionResult op (a / b) (a % b)).2) :
    (op = .div → r0.toNat = a / b ∧ r1 = 0) ∧ (op = .rem → r0.toNat = a % b ∧ r1 = 0) ∧
    (op = .divrem → r0.toNat = a / b ∧ r1.toNat = a % b) ∧
    (op = .ismul → (r0 = 1 ↔ b ∣ a) ∧ (r0 = 0 ↔ ¬ b ∣ a) ∧ r1 = 0) := by
  refine ⟨?_, ?_, ?_, ?_⟩
  · rintro rfl
    exact ⟨h0, BitVec.eq_of_toNat_eq h1⟩
  · rintro rfl
    exact ⟨h0, BitVec.eq_of_toNat_eq h1⟩
  · rintro rfl
    exact ⟨h0, h1⟩
  · rintro rfl
    have noSecond : r1 = 0 := BitVec.eq_of_toNat_eq h1
    rw [Nat.dvd_iff_mod_eq_zero, ← BitVec.toNat_inj, ← BitVec.toNat_inj, h0, divisionResult]
    by_cases divides : a % b = 0
    · simp [divides, noSecond]
    · simp [divides, noSecond]

/-! ### The obligations -/

/-- The twelve commands of the division family query by a division. -/
theorem dividesByWitness_of_mem : ∀ i ∈ [Instr.div64, .div128, .div256, .rem64, .rem128, .rem256, .divrem64,
    .divrem128, .divrem256, .ismul64, .ismul128, .ismul256], i.op.dividesByWitness = true := by
  decide

/-- Settles O26: a candidate of the width by the datapath's exact sum; a wider one is refused, and it exceeds the
dividend. -/
theorem divisionDatapathDecidesReconstruction : Obligations.DivisionDatapathDecidesReconstruction := by
  unfold Obligations.DivisionDatapathDecidesReconstruction
  intro w a b wq wr ha hb bound
  by_cases hq : wq.toNat < 2 ^ w.bits
  · exact reconOk_iff_of_fits ha hb hq bound
  · have excess : wq.toNat * b.toNat + wr.toNat ≠ a.toNat := fun product =>
      hq ((quotient_le_of_reconstructs bound product).trans_lt ha)
    simp [reconOk_of_not_fits hq, excess]

/-- Settles O42: the call of R105 for any division command, on operands of the width, a zero divisor, and an operand
too wide. -/
theorem divisionCallRejectsOrQueries : Obligations.DivisionCallRejectsOrQueries := by
  unfold Obligations.DivisionCallRejectsOrQueries
  intro i mem s a b rest ready hi
  have hd := dividesByWitness_of_mem i mem
  have ends := step_call_endsAs ready hi
  refine ⟨fun hA hB hb => ?_, fun hA zero => ?_, fun wide => ?_⟩
  · have queries := step_division_call_queries hd ready hi hA hB hb
    refine ⟨queries, fun t next => ?_⟩
    cases queries.symm.trans next
    have request := witnessRequest_of_divides (s := (accepted s (encode i) a b rest).query) rfl (decode_encode i) hd
    exact ⟨rfl, request.trans (by rw [← encode_width_bits]; rfl)⟩
  · rwa [zero, exactCall_eq_fault_of_zero_divisor hd hA] at ends
  · obtain ⟨hua, hub⟩ := uses_of_dividesByWitness hd
    rwa [exactCall_of_operandTooWide (wide.imp (.intro hua) (.intro hub))] at ends

/-- Settles O43: the answer of R106 for any division command, and the results of each operation. -/
theorem divisionAnswerIsVerified : Obligations.DivisionAnswerIsVerified := by
  unfold Obligations.DivisionAnswerIsVerified
  intro s wq wr rest hq hi
  refine ⟨fun bound product => ?_, fun i mem => ?_⟩
  · have accepts {op : Op} (hd : op.dividesByWitness = true) {i : Instr} (hop : i.op = op) :
        EndsWithValue { s with inputs := rest } (exec i s)
          (divisionResult op wq.toNat wr.toNat).1 (divisionResult op wq.toNat wr.toNat).2 :=
      hop ▸ exec_division_accepts (hop ▸ hd) hq hi bound product
    have quotients : ∀ i ∈ [Instr.div64, .div128, .div256], i.op = .div := by decide
    have remainders : ∀ i ∈ [Instr.rem64, .rem128, .rem256], i.op = .rem := by decide
    have both : ∀ i ∈ [Instr.divrem64, .divrem128, .divrem256], i.op = .divrem := by decide
    have divisibility : ∀ i ∈ [Instr.ismul64, .ismul128, .ismul256], i.op = .ismul := by decide
    exact ⟨fun i mem => accepts rfl (quotients i mem), fun i mem => accepts rfl (remainders i mem),
      fun i mem => accepts rfl (both i mem), fun i mem => accepts rfl (divisibility i mem)⟩
  · have hd := dividesByWitness_of_mem i mem
    exact ⟨exec_division_remainderOutOfRange hd hq hi, exec_division_divisionInvalid hd hq hi⟩

/-- Settles O48: the call queries and the answer to it concludes; the honest answer gives the true results, and any
other one a fault. -/
theorem divisionOutcomeIsTrueOrAFault : Obligations.DivisionOutcomeIsTrueOrAFault := by
  unfold Obligations.DivisionOutcomeIsTrueOrAFault
  intro i mem s a b wq wr rest ready hi hA hB hb
  have hd := dividesByWitness_of_mem i mem
  obtain ⟨t, run, concludes⟩ := run_division hd ready hi hA hB hb
  obtain ⟨-, -, -, -, inputs, -⟩ := concludes.frame
  by_cases honest : (wq, wr) = honestDivision a b
  · rw [exactAnswer_of_honest hd hb honest] at concludes
    obtain ⟨zero, h0, h1⟩ := concludes.outcome_of_value
    exact ⟨t, run, concludes.stage_done (by simp), inputs, .inl zero, iff_of_true zero honest,
      fun _ => divisionResult_true h0 h1⟩
  · have outcome : t.stage = .done ∧ (t.CODE = 4 ∨ t.CODE = 5) := by
      rcases exactAnswer_of_not_honest hd hb honest with verdict | verdict
      · rw [verdict] at concludes
        exact ⟨concludes.stage_done (by simp), .inl (BitVec.eq_of_toNat_eq concludes.code_of_fault)⟩
      · rw [verdict] at concludes
        exact ⟨concludes.stage_done (by simp), .inr (BitVec.eq_of_toNat_eq concludes.code_of_fault)⟩
    obtain ⟨done, code⟩ := outcome
    have nonzero : t.CODE ≠ 0 := by rcases code with code | code <;> simp [code]
    exact ⟨t, run, done, inputs, .inr code, iff_of_false nonzero honest, fun zero => absurd zero nonzero⟩

end Sys2Proof.Machine
end

section
/-! PROOFS. Square root (R125 to R133): the limb datapath of the verifier against the integers, a square-root call and
the answer to it at any width, the two bounds as a comparison with the floor, and the four obligations of the family. -/

namespace Sys2Proof.Machine

/-! ### The datapath of the verifier (R129) -/

theorem bits_eq_double_half : (w : Width) → w.bits = w.halfBits + w.halfBits
  | .w64 | .w128 | .w256 => rfl

theorem halfBits_lt_bits (w : Width) : w.halfBits < w.bits := by cases w <;> decide

/-- A value fits half the width exactly when its square fits the width: why R129 refuses every longer candidate. -/
theorem mul_self_lt_pow_bits_iff {w : Width} {r : Nat} : r * r < 2 ^ w.bits ↔ r < 2 ^ w.halfBits := by
  rw [bits_eq_double_half, pow_add, Nat.mul_self_lt_mul_self_iff]

/-- The adder is exact where the sum fits the width. -/
theorem addN_width_of_lt {w : Width} {x y : BitVec w.bits} (fit : x.toNat + y.toNat < 2 ^ w.bits) :
    (addN w.limbs x y).1.toNat = x.toNat + y.toNat := by
  have sum := addN_width w x y
  have noCarry : (addN w.limbs x y).2 = 0 :=
    (BitVec.eq_zero_or_eq_one _).resolve_right (mt (addN_carry w x y).1 (not_not.2 fit))
  simpa [noCarry] using sum

/-- An upper part of zeros and a lower part that `a` does not undercut are a value up to `a`. -/
theorem parts_le_iff {m n : Nat} (v : BitVec m) (a : BitVec n) :
    v >>> n = 0 ∧ ¬ a.toNat < (v.setWidth n).toNat ↔ v.toNat ≤ a.toNat := by
  have upper : v >>> n = 0 ↔ v.toNat < 2 ^ n := by
    rw [← BitVec.toNat_inj, BitVec.toNat_ushiftRight, Nat.shiftRight_eq_div_pow]
    simp [Nat.div_eq_zero_iff]
  rw [upper, Nat.not_lt, BitVec.toNat_setWidth]
  constructor
  · rintro ⟨fit, le⟩
    rwa [Nat.mod_eq_of_lt fit] at le
  · intro le
    exact ⟨le.trans_lt a.isLt, (Nat.mod_le _ _).trans le⟩

/-- R129 for a candidate of half the width: its square, its increment and the square of that are exact. -/
theorem sqrtCheck_of_fits {w : Width} {a wq : Bus} (ha : a.toNat < 2 ^ w.bits) (hq : wq.toNat < 2 ^ w.halfBits) :
    sqrtCheck w a wq =
      if a.toNat < wq.toNat * wq.toNat then .overestimate
      else if (wq.toNat + 1) * (wq.toNat + 1) ≤ a.toNat then .underestimate
      else .accept := by
  have radicand := setWidth_toNat_of_lt ha
  have increment : wq.toNat + 1 < 2 ^ w.bits :=
    (Nat.succ_le_of_lt hq).trans_lt (Nat.pow_lt_pow_right (by decide) (halfBits_lt_bits w))
  have root : (wq.setWidth w.bits).toNat = wq.toNat := setWidth_toNat_of_lt ((Nat.lt_succ_self _).trans increment)
  have one : (1 : BitVec w.bits).toNat = 1 := by cases w <;> rfl
  have next : (addN w.limbs (wq.setWidth w.bits) 1).1.toNat = wq.toNat + 1 := by
    rw [addN_width_of_lt (by rwa [root, one]), root, one]
  have square : ((mulwide w (wq.setWidth w.bits) (wq.setWidth w.bits)).setWidth w.bits).toNat =
      wq.toNat * wq.toNat := by
    rw [BitVec.toNat_setWidth, mulwide_exact, root, Nat.mod_eq_of_lt (mul_self_lt_pow_bits_iff.2 hq)]
  have lower := parts_le_iff (mulwide w (addN w.limbs (wq.setWidth w.bits) 1).1 (addN w.limbs (wq.setWidth w.bits) 1).1)
    (a.setWidth w.bits)
  rw [mulwide_exact, next, radicand] at lower
  simp only [sqrtCheck, (fits_iff _ _).2 hq, if_true, ltN_width, decide_eq_true_eq, radicand, square, lower]

/-- R129: a candidate longer than half the width is refused, as an overestimate. -/
theorem sqrtCheck_of_not_fits {w : Width} {a wq : Bus} (hq : ¬ wq.toNat < 2 ^ w.halfBits) :
    sqrtCheck w a wq = .overestimate :=
  if_neg (mt (fits_iff _ _).1 hq)

/-- R129 is R126's two tests, in their order, for every candidate. -/
theorem sqrtCheck_eq {w : Width} {a : Bus} (ha : a.toNat < 2 ^ w.bits) (wq : Bus) :
    sqrtCheck w a wq =
      if a.toNat < wq.toNat * wq.toNat then .overestimate
      else if (wq.toNat + 1) * (wq.toNat + 1) ≤ a.toNat then .underestimate
      else .accept := by
  by_cases hq : wq.toNat < 2 ^ w.halfBits
  · exact sqrtCheck_of_fits ha hq
  · have above : a.toNat < wq.toNat * wq.toNat := ha.trans_le (Nat.not_lt.1 (mt mul_self_lt_pow_bits_iff.1 hq))
    rw [sqrtCheck_of_not_fits hq, if_pos above]

/-! ### The call and its answer (R125, R126) -/

theorem exactCall_sqrt {E W a b : Nat} (fit : a < 2 ^ W) : exactCall E W a b .sqrt = .query := by
  rw [exactCall, if_neg (not_operandTooWide_of_lt fit rfl)]

section Answers

variable {a wq : Nat} (b wr : Nat)

theorem exactAnswer_sqrt_of_floor (low : wq * wq ≤ a) (high : a < (wq + 1) * (wq + 1)) :
    exactAnswer a b wq wr .sqrt = .value wq 0 := by
  rw [exactAnswer, if_neg (Nat.not_lt.2 low), if_neg (Nat.not_le.2 high)]

theorem exactAnswer_sqrt_of_above (above : a < wq * wq) : exactAnswer a b wq wr .sqrt = .fault 6 := by
  rw [exactAnswer, if_pos above]

/-- A candidate whose successor is not too high is not too high itself. -/
theorem exactAnswer_sqrt_of_below (below : (wq + 1) * (wq + 1) ≤ a) : exactAnswer a b wq wr .sqrt = .fault 7 := by
  have low : wq * wq ≤ a := (Nat.mul_self_le_mul_self (Nat.le_succ wq)).trans below
  rw [exactAnswer, if_neg (Nat.not_lt.2 low), if_pos below]

end Answers

section Commands

variable {i : Instr} {s : State} {a b wq wr : Bus} {rest : List PortEvent}

/-- R125: a square-root call with a radicand of the width latches it and queries. -/
theorem step_sqrt_call_queries (hop : i.op = .sqrt) (ready : s.stage ≠ .query)
    (hi : s.inputs = .call (encode i) a b :: rest) (hA : a.toNat < 2 ^ i.width.bits) :
    step s = .next (accepted s (encode i) a b rest).query := by
  have ends := step_call_endsAs ready hi
  rwa [hop, exactCall_sqrt hA] at ends

/-- R125, R126: a square-root call and the answer to it are two steps, which conclude from the latched call as the
integers say of that answer. -/
theorem run_sqrt (hop : i.op = .sqrt) (ready : s.stage ≠ .query)
    (hi : s.inputs = .call (encode i) a b :: .answer wq wr :: rest) (hA : a.toNat < 2 ^ i.width.bits) :
    ∃ t, Host.Core.run core 2 s = .next t ∧
      Concludes (accepted s (encode i) a b rest).query (.next t)
        (exactAnswer a.toNat b.toNat wq.toNat wr.toNat .sqrt) := by
  have called := step_sqrt_call_queries hop ready hi hA
  have answered := step_answer_concludes (s := (accepted s (encode i) a b (.answer wq wr :: rest)).query)
    rfl rfl (decode_encode i) (Op.queriesWitness_iff.2 (.inr hop))
  obtain ⟨t, second⟩ := answered.exists_next
  exact ⟨t, run_two_of_steps called second, hop ▸ second ▸ answered⟩

end Commands

/-! ### The honest answer (R133) -/

theorem honestRoot_toNat (a : Bus) : (honestRoot a).toNat = Nat.sqrt a.toNat :=
  BitVec.toNat_ofNat .. |>.trans (Nat.mod_eq_of_lt ((Nat.sqrt_le_self _).trans_lt a.isLt))

/-- R133: the two bounds of R126 compare the candidate with the floor of the square root. -/
theorem exactAnswer_sqrt_cases (a b wq wr : Nat) :
    (wq = Nat.sqrt a ∧ exactAnswer a b wq wr .sqrt = .value (Nat.sqrt a) 0) ∨
      (Nat.sqrt a < wq ∧ exactAnswer a b wq wr .sqrt = .fault 6) ∨
      (wq < Nat.sqrt a ∧ exactAnswer a b wq wr .sqrt = .fault 7) := by
  rcases Nat.lt_trichotomy wq (Nat.sqrt a) with below | rfl | above
  · exact .inr (.inr ⟨below, exactAnswer_sqrt_of_below b wr (Nat.le_sqrt.1 below)⟩)
  · exact .inl ⟨rfl, exactAnswer_sqrt_of_floor b wr (Nat.sqrt_le a) (Nat.lt_succ_sqrt a)⟩
  · exact .inr (.inl ⟨above, exactAnswer_sqrt_of_above b wr (Nat.sqrt_lt.1 above)⟩)

/-- The floor of the square root of a value of the width fits half the width (R133). -/
theorem sqrt_lt_pow_halfBits {w : Width} {a : Nat} (ha : a < 2 ^ w.bits) : Nat.sqrt a < 2 ^ w.halfBits :=
  mul_self_lt_pow_bits_iff.1 ((Nat.sqrt_le a).trans_lt ha)

/-! ### The obligations -/

theorem op_eq_sqrt_of_mem : ∀ i ∈ [Instr.sqrt64, .sqrt128, .sqrt256], i.op = .sqrt := by decide

/-- Settles O27: the datapath makes the tests of R126, of which at most one holds. -/
theorem squareRootDatapathDecidesBothBounds : Obligations.SquareRootDatapathDecidesBothBounds := by
  unfold Obligations.SquareRootDatapathDecidesBothBounds
  intro w a wq ha
  have grows : wq.toNat * wq.toNat ≤ (wq.toNat + 1) * (wq.toNat + 1) := Nat.mul_self_le_mul_self (Nat.le_succ _)
  rw [sqrtCheck_eq ha wq]
  by_cases above : a.toNat < wq.toNat * wq.toNat
  · have notBelow := Nat.not_le.2 (above.trans_le grows)
    simp [above, notBelow]
  · by_cases below : (wq.toNat + 1) * (wq.toNat + 1) ≤ a.toNat
    · simp [above, below]
    · simp [above, below, Nat.not_lt.1 above, Nat.not_le.1 below]

/-- Settles O44: the call of R125 at any width, with a radicand of the width and with one too wide. -/
theorem squareRootCallAlwaysQueries : Obligations.SquareRootCallAlwaysQueries := by
  unfold Obligations.SquareRootCallAlwaysQueries
  intro i mem s a b rest ready hi
  have hop := op_eq_sqrt_of_mem i mem
  refine ⟨fun hA => ?_, fun wide => ?_⟩
  · have queries := step_sqrt_call_queries hop ready hi hA
    refine ⟨queries, fun t next => ?_⟩
    cases queries.symm.trans next
    have request := witnessRequest_of_sqrt (s := (accepted s (encode i) a b rest).query) rfl (decode_encode i) hop
    exact ⟨rfl, request.trans (by rw [← encode_width_bits]; rfl)⟩
  · have ends := step_call_endsAs ready hi
    rwa [hop, exactCall_of_operandTooWide (.inl ⟨rfl, wide⟩)] at ends

/-- Settles O45: each of the three outcomes of R126, for the answer that the command takes. -/
theorem squareRootAnswerIsVerified : Obligations.SquareRootAnswerIsVerified := by
  unfold Obligations.SquareRootAnswerIsVerified
  intro i mem s wq wr rest hq hi
  have hop := op_eq_sqrt_of_mem i mem
  have ends := exec_answer_endsAs (Op.queriesWitness_iff.2 (.inr hop)) hq hi
  rw [hop] at ends
  refine ⟨fun low high => ?_, fun above => ?_, fun below => ?_⟩
  · rwa [exactAnswer_sqrt_of_floor _ _ low high] at ends
  · rwa [exactAnswer_sqrt_of_above _ _ above] at ends
  · rwa [exactAnswer_sqrt_of_below _ _ below] at ends

/-- Settles O49: the call queries, and the answer to it concludes by where the candidate lies: at the floor, above it
or below it. -/
theorem squareRootOutcomeIsTheFloorOrAFault : Obligations.SquareRootOutcomeIsTheFloorOrAFault := by
  unfold Obligations.SquareRootOutcomeIsTheFloorOrAFault
  intro i mem s a b wq wr rest ready hi hA
  obtain ⟨t, run, concludes⟩ := run_sqrt (op_eq_sqrt_of_mem i mem) ready hi hA
  obtain ⟨-, -, -, -, inputs, -⟩ := concludes.frame
  rw [← BitVec.toNat_inj, honestRoot_toNat]
  rcases exactAnswer_sqrt_cases a.toNat b.toNat wq.toNat wr.toNat with
    ⟨floor, verdict⟩ | ⟨above, verdict⟩ | ⟨below, verdict⟩
  · rw [verdict] at concludes
    obtain ⟨zero, root, second⟩ := concludes.outcome_of_value
    have half : t.RES0.toNat < 2 ^ i.width.halfBits := root ▸ sqrt_lt_pow_halfBits hA
    exact ⟨t, run, concludes.stage_done (by simp), inputs, by simp [zero, floor], by simp [zero, floor],
      by simp [zero, floor], fun _ => ⟨root, half, BitVec.eq_of_toNat_eq second⟩⟩
  · rw [verdict] at concludes
    have code : t.CODE = 6 := BitVec.eq_of_toNat_eq concludes.code_of_fault
    exact ⟨t, run, concludes.stage_done (by simp), inputs, by simp [code, above.ne'], by simp [code, above],
      by simp [code, above.le], by simp [code]⟩
  · rw [verdict] at concludes
    have code : t.CODE = 7 := BitVec.eq_of_toNat_eq concludes.code_of_fault
    exact ⟨t, run, concludes.stage_done (by simp), inputs, by simp [code, below.ne], by simp [code, below.le],
      by simp [code, below], by simp [code]⟩

end Sys2Proof.Machine
end

section
/-! PROOFS. Comparisons, minimum and maximum (R140 to R165): the limb comparator against the integers and the
subtractor, the value that each of the seven commands ends with in any stage and at any width, and the five
obligations of the family. -/

namespace Sys2Proof.Machine

/-! ### Operands against the integers -/

/-- The value that a comparison, `MIN` or `MAX` leaves for two operands of its width, as R141 to R161 write it; the
other operations have none here. -/
def comparisonValue (op : Op) (a b : Nat) : Option Nat :=
  match op with
  | .eq => some (if a = b then 1 else 0)
  | .lt => some (if a < b then 1 else 0)
  | .lte => some (if a ≤ b then 1 else 0)
  | .gt => some (if a > b then 1 else 0)
  | .gte => some (if a ≥ b then 1 else 0)
  | .min => some (if b < a then b else a)
  | .max => some (if a < b then b else a)
  | _ => none

/-- The comparison family queries nothing (R25). -/
theorem not_queriesWitness_of_comparisonValue {op : Op} {a b r : Nat} (h : comparisonValue op a b = some r) :
    op.queriesWitness = false := by
  cases op with
  | eq | lt | lte | gt | gte | min | max => rfl
  | _ => cases h

/-- A truth value of R52, for a proposition that is decided. -/
theorem bit_decide (p : Prop) [Decidable p] : bit (decide p) = if p then 1 else 0 := by simp [bit]

/-- On a tie `MIN` and `MAX` leave `a`, which is the integers' minimum and maximum as well (R156 to R161). -/
theorem exactCall_of_comparisonValue {E W a b r : Nat} {op : Op} (h : comparisonValue op a b = some r)
    (hA : a < 2 ^ W) (hB : b < 2 ^ W) : exactCall E W a b op = .value r 0 := by
  rw [exactCall.eq_def, if_neg (not_operandTooWide_of_both_lt hA hB)]
  cases op with
  | eq | lt | lte | gt | gte =>
    cases h
    exact congrArg (Verdict.value · 0) (bit_decide _)
  | min =>
    cases h
    exact congrArg (Verdict.value · 0) ((min_comm a b).trans (min_def_lt b a))
  | max =>
    cases h
    exact congrArg (Verdict.value · 0) (max_def_lt a b)
  | _ => cases h

/-! ### The commands, in any stage and at any width -/

section Commands

variable {i : Instr} {s : State} {r : Nat}

/-- R141 to R161, for operands of the width. -/
theorem exec_comparison (value : comparisonValue i.op s.A.toNat s.B.toNat = some r)
    (hA : s.A.toNat < 2 ^ i.width.bits) (hB : s.B.toNat < 2 ^ i.width.bits) : EndsWithValue s (exec i s) r 0 :=
  exec_endsWithValue (not_queriesWitness_of_comparisonValue value) (exactCall_of_comparisonValue value hA hB)

/-- The command of the family at a given width completes, and `RES0` holds its value. -/
theorem exec_comparison_next {op : Op} {w : Width} (hi : instrOf op w = some i)
    (value : comparisonValue op s.A.toNat s.B.toNat = some r)
    (hA : s.A.toNat < 2 ^ w.bits) (hB : s.B.toNat < 2 ^ w.bits) :
    ∃ t, exec i s = .next t ∧ t.RES0.toNat = r := by
  obtain ⟨rfl, rfl⟩ := instrOf_eq_some hi
  obtain ⟨next, small, -⟩ := exec_comparison value hA hB
  exact ⟨_, next, BitVec.toNat_ofNat .. |>.trans (Nat.mod_eq_of_lt small)⟩

end Commands

/-! ### The obligations -/

/-- Settles O25: the comparator decides the order, and so does the borrow of the exact difference. -/
theorem comparatorDecidesTheOrder : Obligations.ComparatorDecidesTheOrder := by
  unfold Obligations.ComparatorDecidesTheOrder
  intro n a b
  have less : ltN n a b = true ↔ a.toNat < b.toNat := by rw [ltN_eq, decide_eq_true_eq]
  have equal : eqN n a b = true ↔ a.toNat = b.toNat := by rw [eqN_eq, decide_eq_true_eq]
  have borrow : (subN n a b).2 = 1 ↔ a.toNat < b.toNat :=
    borrow_eq_one_iff (subN n a b).1.isLt (subN_exact n a b)
  exact ⟨less, equal, less.trans borrow.symm⟩

/-- Settles O37: `EQ` and `LT` at the three widths; every bus is of width 256. -/
theorem eqAndLtCompareTheIntegers : Obligations.EqAndLtCompareTheIntegers := by
  unfold Obligations.EqAndLtCompareTheIntegers
  refine ⟨by decide, by decide, by decide, by decide, by decide, by decide, fun s => ⟨?_, ?_, ?_, ?_, ?_⟩⟩
  · intro hA hB
    exact ⟨exec_comparison (i := .eq64) rfl hA hB,
      exec_comparison (i := .lt64) rfl hA hB⟩
  · intro wide
    exact ⟨exec_operandRange (i := .eq64) rfl rfl rfl wide,
      exec_operandRange (i := .lt64) rfl rfl rfl wide⟩
  · intro hA hB
    exact ⟨exec_comparison (i := .eq128) rfl hA hB,
      exec_comparison (i := .lt128) rfl hA hB⟩
  · intro wide
    exact ⟨exec_operandRange (i := .eq128) rfl rfl rfl wide,
      exec_operandRange (i := .lt128) rfl rfl rfl wide⟩
  · exact ⟨exec_comparison (i := .eq256) rfl s.A.isLt s.B.isLt,
      exec_comparison (i := .lt256) rfl s.A.isLt s.B.isLt⟩

/-- Settles O38: `LTE`, `GT` and `GTE` at the three widths; every bus is of width 256. -/
theorem lteGtAndGteCompareTheIntegers : Obligations.LteGtAndGteCompareTheIntegers := by
  unfold Obligations.LteGtAndGteCompareTheIntegers
  refine ⟨by decide, by decide, by decide, by decide, by decide, by decide, by decide, by decide, by decide,
    fun s => ⟨?_, ?_, ?_, ?_, ?_⟩⟩
  · intro hA hB
    exact ⟨exec_comparison (i := .lte64) rfl hA hB,
      exec_comparison (i := .gt64) rfl hA hB,
      exec_comparison (i := .gte64) rfl hA hB⟩
  · intro wide
    exact ⟨exec_operandRange (i := .lte64) rfl rfl rfl wide,
      exec_operandRange (i := .gt64) rfl rfl rfl wide,
      exec_operandRange (i := .gte64) rfl rfl rfl wide⟩
  · intro hA hB
    exact ⟨exec_comparison (i := .lte128) rfl hA hB,
      exec_comparison (i := .gt128) rfl hA hB,
      exec_comparison (i := .gte128) rfl hA hB⟩
  · intro wide
    exact ⟨exec_operandRange (i := .lte128) rfl rfl rfl wide,
      exec_operandRange (i := .gt128) rfl rfl rfl wide,
      exec_operandRange (i := .gte128) rfl rfl rfl wide⟩
  · exact ⟨exec_comparison (i := .lte256) rfl s.A.isLt s.B.isLt,
      exec_comparison (i := .gt256) rfl s.A.isLt s.B.isLt,
      exec_comparison (i := .gte256) rfl s.A.isLt s.B.isLt⟩

/-- Settles O39: `MIN` and `MAX` at the three widths; every bus is of width 256. -/
theorem minAndMaxChooseTheInteger : Obligations.MinAndMaxChooseTheInteger := by
  unfold Obligations.MinAndMaxChooseTheInteger
  refine ⟨by decide, by decide, by decide, by decide, by decide, by decide, fun s => ⟨?_, ?_, ?_, ?_, ?_⟩⟩
  · intro hA hB
    exact ⟨exec_comparison (i := .min64) rfl hA hB,
      exec_comparison (i := .max64) rfl hA hB⟩
  · intro wide
    exact ⟨exec_operandRange (i := .min64) rfl rfl rfl wide,
      exec_operandRange (i := .max64) rfl rfl rfl wide⟩
  · intro hA hB
    exact ⟨exec_comparison (i := .min128) rfl hA hB,
      exec_comparison (i := .max128) rfl hA hB⟩
  · intro wide
    exact ⟨exec_operandRange (i := .min128) rfl rfl rfl wide,
      exec_operandRange (i := .max128) rfl rfl rfl wide⟩
  · exact ⟨exec_comparison (i := .min256) rfl s.A.isLt s.B.isLt,
      exec_comparison (i := .max256) rfl s.A.isLt s.B.isLt⟩

/-- Settles O53: each command completes with its value, and the three cases of the order of the operands give the
seven values. -/
theorem comparisonsOrderTheOperandsTotally : Obligations.ComparisonsOrderTheOperandsTotally := by
  unfold Obligations.ComparisonsOrderTheOperandsTotally
  intro w s hA hB ilt ieq igt ilte igte imin imax hlt heq hgt hlte hgte hmin hmax
  obtain ⟨lt, runLt, vLt⟩ := exec_comparison_next hlt rfl hA hB
  obtain ⟨eq, runEq, vEq⟩ := exec_comparison_next heq rfl hA hB
  obtain ⟨gt, runGt, vGt⟩ := exec_comparison_next hgt rfl hA hB
  obtain ⟨lte, runLte, vLte⟩ := exec_comparison_next hlte rfl hA hB
  obtain ⟨gte, runGte, vGte⟩ := exec_comparison_next hgte rfl hA hB
  obtain ⟨min, runMin, vMin⟩ := exec_comparison_next hmin rfl hA hB
  obtain ⟨max, runMax, vMax⟩ := exec_comparison_next hmax rfl hA hB
  refine ⟨lt, eq, gt, lte, gte, min, max, runLt, runEq, runGt, runLte, runGte, runMin, runMax, ?_⟩
  simp only [← BitVec.toNat_inj, vLt, vEq, vGt, vLte, vGte, vMin, vMax]
  rcases Nat.lt_trichotomy s.A.toNat s.B.toNat with less | equal | greater
  · simp [less, less.le, less.ne, Nat.lt_asymm less, Nat.not_le.2 less]
  · simp [equal]
  · simp [greater, greater.le, greater.ne', Nat.lt_asymm greater, Nat.not_le.2 greater, Nat.add_comm]

end Sys2Proof.Machine
end

section
/-! PROOFS. The constants (R170, R171): `ZERO` at any width examines no operand, and the obligation of the family. -/

namespace Sys2Proof.Machine

/-- The result of `ZERO` depends on neither operand, nor on whether they fit the width (R51, R170). -/
theorem exactCall_zero (E W a b : Nat) : exactCall E W a b .zero = .value 0 0 := by
  rw [exactCall, if_neg (not_operandTooWide_of_unused rfl rfl)]

/-- R170, R171: in any stage and with any operands. -/
theorem exec_zero {i : Instr} (hop : i.op = .zero) (s : State) : EndsWithValue s (exec i s) 0 0 :=
  exec_endsWithValue (by rw [hop]; rfl) (by rw [callVerdict, hop, exactCall_zero])

/-- Settles O40: `ZERO` at its two widths. -/
theorem zeroIgnoresItsOperands : Obligations.ZeroIgnoresItsOperands := by
  unfold Obligations.ZeroIgnoresItsOperands
  exact ⟨by decide, by decide, fun s => ⟨exec_zero (i := .zero128) rfl s, exec_zero (i := .zero256) rfl s⟩⟩

end Sys2Proof.Machine
end

section
/-! PROOFS. The exceptions (R180 to R193, R203): the bytes that R50 lists are those the decoder rejects, the code of a
verdict and where it comes from, what a fault writes, and the four obligations of the family. -/

namespace Sys2Proof

open Machine

/-! ### The illegal bytes (R50) -/

/-- R50's list read off the three fields of a byte (R45). -/
def illegalFields (w grp fn : Nat) : Bool :=
  w == 3 || grp == 0 ||
  (grp == 1 && (fn ≥ 2 || (fn == 0 && w != 2) || (fn == 1 && w == 0))) ||
  (grp == 2 && (fn ≥ 3 || (fn == 0 && w == 2))) ||
  (grp == 3 && (fn ≥ 2 || (fn == 0 && w == 2))) ||
  (grp == 4 && fn ≥ 3) || (grp == 5 && fn ≥ 1) ||
  (grp == 7 && (fn ≥ 2 || w == 0))

theorem illegalByte_eq_fields (cmd : Byte) :
    illegalByte cmd = illegalFields (cmdWidthField cmd) (cmdGroupField cmd) (cmdFunctionField cmd) := by
  have width : cmd.toNat / 2 ^ 6 % 2 ^ 2 = cmd.toNat / 64 := by
    have := cmd.isLt
    omega
  rw [cmdWidthField_eq, cmdGroupField_eq, cmdFunctionField_eq, width]
  rfl

/-- The fields of an operation at a width are in R50's list exactly where R49 has no command. -/
theorem illegalFields_op (op : Op) (w : Width) :
    illegalFields w.code op.group op.function = !op.legalAt w := by
  cases op <;> cases w <;> rfl

/-- The one width code without a width is 3 (R46). -/
theorem illegalFields_of_decodeWidth_error {n grp fn : Nat} {r : Reject} (hn : n < 2 ^ 2)
    (h : decodeWidth n = .error r) : illegalFields n grp fn = true := by
  interval_cases n
  · cases h
  · cases h
  · cases h
  · rfl

/-- The number of functions that R49 assigns in a group. -/
def functionCount : Nat → Nat
  | 1 => 2 | 2 => 3 | 3 => 2 | 4 => 3 | 5 => 1 | 6 => 8 | 7 => 2
  | _ => 0

theorem decodeOp_of_lt_functionCount {g f : Nat} (h : f < functionCount g) : ∃ op, decodeOp g f = .ok op := by
  unfold functionCount at h
  split at h <;> interval_cases f <;> exact ⟨_, rfl⟩

/-- R50 lists every function past the assigned ones of its group (in group 6 there is none). -/
theorem illegalFields_of_functionCount_le {w g f : Nat} (hg : g < 2 ^ 3) (hf : f < 2 ^ 3)
    (h : functionCount g ≤ f) : illegalFields w g f = true := by
  interval_cases g <;> simp only [functionCount] at h <;> simp [illegalFields] <;> omega

/-- R49's map has a command in exactly the cells of its legal widths. -/
theorem instrOf_isSome (op : Op) (w : Width) : (instrOf op w).isSome = op.legalAt w := by
  cases op <;> cases w <;> rfl

theorem illegalByte_of_decode_ok {cmd : Byte} {i : Instr} (h : decode cmd = .ok i) : illegalByte cmd = false := by
  obtain ⟨legal, -⟩ := legalForm i
  rw [← encode_of_decode h, illegalByte_eq_fields, cmdWidthField_encode, cmdGroupField_encode,
    cmdFunctionField_encode, illegalFields_op]
  simpa [Instr.wellFormed] using legal

/-- Each of the three tables that can reject a byte rejects it for a reason that R50 lists. -/
theorem illegalByte_of_decode_error {cmd : Byte} {r : Reject} (h : decode cmd = .error r) :
    illegalByte cmd = true := by
  have hwidth : cmdWidthField cmd < 2 ^ 2 := BitVec.isLt _
  have hgroup : cmdGroupField cmd < 2 ^ 3 := BitVec.isLt _
  have hfunction : cmdFunctionField cmd < 2 ^ 3 := BitVec.isLt _
  rw [illegalByte_eq_fields]
  unfold decode at h
  split at h
  next _ hw => exact illegalFields_of_decodeWidth_error hwidth hw
  next w hw =>
    split at h
    next _ hop =>
      refine illegalFields_of_functionCount_le hgroup hfunction (Nat.not_lt.1 fun lt => ?_)
      obtain ⟨op, assigned⟩ := decodeOp_of_lt_functionCount lt
      cases hop.symm.trans assigned
    next op hop =>
      split at h
      next => cases h
      next empty =>
        obtain ⟨hg, hf⟩ := decodeOp_eq_ok hop
        rw [← decodeWidth_eq_ok hw, ← hg, ← hf, illegalFields_op, ← instrOf_isSome, empty]
        rfl

end Sys2Proof

namespace Sys2Proof.Machine

/-! ### The code of a verdict (R15, R181) -/

/-- The code that a call with this verdict ends in, if it ends. -/
def Verdict.code : Verdict → Option Nat
  | .value _ _ => some 0
  | .fault code => some code
  | .query => none

theorem Concludes.stage_query_or_done {s t : State} {v : Verdict} (h : Concludes s (.next t) v) :
    t.stage = .query ∨ t.stage = .done := by
  rcases h.next_cases with ⟨r0, r1, rfl, -⟩ | ⟨k, rfl, -⟩ | ⟨rfl, -⟩ <;> simp

/-- A call that is over holds the code of its verdict. -/
theorem Concludes.code_of_done {s t : State} {v : Verdict} (h : Concludes s (.next t) v) (done : t.stage = .done) :
    v.code = some t.CODE.toNat := by
  rcases h.next_cases with ⟨r0, r1, rfl, rfl⟩ | ⟨k, rfl, rfl⟩ | ⟨rfl, -⟩
  · rfl
  · rfl
  · cases done

/-- A step ends in a fault exactly when its verdict is that fault. -/
theorem Concludes.endsInFault_iff {s : State} {out : Out} {v : Verdict} {code : Nat} (h : Concludes s out v)
    (nonzero : code ≠ 0) : EndsInFault s out code ↔ v.code = some code := by
  constructor
  · rintro ⟨small, r0, r1, rfl⟩
    simpa [Nat.mod_eq_of_lt small] using h.code_of_done rfl
  · intro hv
    have ends := h.endsAs
    cases v with
    | value => exact absurd (Option.some.inj hv).symm nonzero
    | fault => exact Option.some.inj hv ▸ ends
    | query => cases hv

/-- R193: what a call that ended in a fault has written, and nothing else. -/
theorem Concludes.eq_of_fault {s t : State} {v : Verdict} (h : Concludes s (.next t) v) (done : t.stage = .done)
    (nonzero : t.CODE ≠ 0) : t = { s with stage := .done, CODE := t.CODE, RES0 := 0, RES1 := 0 } := by
  rcases h.next_cases with ⟨r0, r1, rfl, -⟩ | ⟨k, rfl, -⟩ | ⟨rfl, -⟩
  · exact absurd rfl nonzero
  · rfl
  · cases done

/-! ### The codes of a call and of an answer (R203) -/

/-- R203's cells `c` of an operation, but for code 10, which depends on the width. -/
def ownCallCodes : Op → List Nat
  | .exportTo | .narrow => [0, 8]
  | .addc | .mulc => [0, 1]
  | .sub => [0, 2]
  | .div | .rem | .divrem | .ismul => [3]
  | .sqrt => []
  | .addw | .mulw | .eq | .lt | .lte | .gt | .gte | .min | .max | .zero | .modulus => [0]

theorem callCodes_eq (i : Instr) :
    callCodes i = if i.width = .w256 ∨ i.op.usesA = false then ownCallCodes i.op else ownCallCodes i.op ++ [10] :=
  rfl

/-- Neither `IllegalCommand` nor `OperandRange` is an operation's own code (R191, R192). -/
theorem ownCallCodes_lt (op : Op) : ∀ code ∈ ownCallCodes op, code < 9 := by
  cases op <;> decide

/-- Past the operand check the integers give only the operation's own codes. -/
theorem exactCall_code_mem {E W a b code : Nat} {op : Op} (fit : ¬ OperandTooWide W a b op)
    (h : (exactCall E W a b op).code = some code) : code ∈ ownCallCodes op := by
  rw [exactCall.eq_def, if_neg fit] at h
  cases op with
  | exportTo | narrow | addc | sub | mulc | div | rem | divrem | ismul =>
    dsimp only at h
    split_ifs at h <;> cases h <;> decide
  | sqrt => cases h
  | addw | mulw | eq | lt | lte | gt | gte | min | max | zero | modulus =>
    cases h
    exact List.mem_singleton_self 0

/-- R192 over the integers. -/
theorem exactCall_code_ten_iff {E W a b : Nat} {op : Op} :
    (exactCall E W a b op).code = some 10 ↔ OperandTooWide W a b op := by
  constructor
  · intro h
    by_contra fit
    exact absurd (ownCallCodes_lt op 10 (exactCall_code_mem fit h)) (by decide)
  · intro wide
    rw [exactCall_of_operandTooWide wide]
    rfl

/-- No operation uses `b` alone (R51). -/
theorem usesB_of_not_usesA {op : Op} (h : op.usesA = false) : op.usesB = false := by
  cases op with
  | zero | modulus => rfl
  | _ => cases h

/-- Every bus fits width 256, and a command that uses no operand checks none (R192). -/
theorem not_exempt_of_operandTooWide {w : Width} {a b : Bus} {op : Op} (h : OperandTooWide w.bits a.toNat b.toNat op) :
    ¬ (w = .w256 ∨ op.usesA = false) := by
  rintro (rfl | unused)
  · exact not_operandTooWide a b op h
  · exact not_operandTooWide_of_unused unused (usesB_of_not_usesA unused) h

theorem callVerdict_code_mem {i : Instr} {s : State} {code : Nat} (h : (callVerdict i s).code = some code) :
    code ∈ callCodes i := by
  rw [callCodes_eq]
  by_cases wide : OperandTooWide i.width.bits s.A.toNat s.B.toNat i.op
  · rw [callVerdict, exactCall_of_operandTooWide wide] at h
    cases h
    rw [if_neg (not_exempt_of_operandTooWide wide)]
    exact List.mem_append_right _ (List.mem_singleton_self 10)
  · have own := exactCall_code_mem wide h
    split
    · exact own
    · exact List.mem_append_left _ own

/-- R191: a legal command never ends in code 9. -/
theorem callVerdict_code_ne_nine (i : Instr) (s : State) : (callVerdict i s).code ≠ some 9 := by
  intro h
  by_cases wide : OperandTooWide i.width.bits s.A.toNat s.B.toNat i.op
  · rw [callVerdict, exactCall_of_operandTooWide wide] at h
    cases h
  · exact Nat.lt_irrefl 9 (ownCallCodes_lt i.op 9 (exactCall_code_mem wide h))

theorem answerVerdict_code_mem {i : Instr} {wq wr : Bus} {s : State} {code : Nat}
    (h : (answerVerdict i wq wr s).code = some code) : code ∈ answerCodes i := by
  unfold answerVerdict at h
  unfold answerCodes
  generalize i.op = op at *
  cases op with
  | div | rem | divrem | ismul =>
    simp only [exactAnswer, exactAnswer.divided] at h
    split_ifs at h <;> cases h <;> decide
  | sqrt =>
    simp only [exactAnswer] at h
    split_ifs at h <;> cases h <;> decide
  | _ => cases h

/-! ### The obligations -/

/-- Settles O4: the decoder rejects R50's bytes and no other, and a legal command never ends in code 9. -/
theorem illegalCommandExactlyOnIllegalBytes : Obligations.IllegalCommandExactlyOnIllegalBytes := by
  unfold Obligations.IllegalCommandExactlyOnIllegalBytes
  intro s cmd a b rest hq hi
  have concludes := step_call_concludes hq hi
  cases hd : decode cmd with
  | ok i =>
    rw [latchedVerdict_of_ok (s := accepted s cmd a b rest) hd] at concludes
    refine ⟨fun illegal => ?_, fun _ => ?_⟩
    · rw [illegalByte_of_decode_ok hd] at illegal
      cases illegal
    · obtain ⟨t, ht⟩ := concludes.exists_next
      rw [ht] at concludes
      refine ⟨t, ht, concludes.stage_query_or_done.imp_right fun done => ⟨done, fun nine => ?_⟩⟩
      have code := concludes.code_of_done done
      rw [nine] at code
      exact callVerdict_code_ne_nine i _ code
  | error r =>
    rw [latchedVerdict_of_error (s := accepted s cmd a b rest) hd] at concludes
    refine ⟨fun _ => concludes.endsAs, fun legal => ?_⟩
    rw [illegalByte_of_decode_error hd] at legal
    cases legal

/-- Settles O14: an accepted call and an answer both conclude, and a conclusion in a fault writes only the outcome. -/
theorem faultEntryWritesOnlyTheOutcome : Obligations.FaultEntryWritesOnlyTheOutcome := by
  unfold Obligations.FaultEntryWritesOnlyTheOutcome
  constructor
  · intro s t cmd a b rest hq hi h done nonzero
    have concludes := step_call_concludes hq hi
    rw [h] at concludes
    exact concludes.eq_of_fault done nonzero
  · intro s t wq wr rest hq hi h nonzero
    have answer : answerStep s = .next t := by simpa [step, portStep, hi] using h
    rcases answerStep_next answer with ⟨idle, -⟩ | ⟨-, i, hd, hw, -⟩
    · exact absurd hq idle
    · have concludes := step_answer_concludes hq hi hd hw
      rw [h, passEvent_eq hi] at concludes
      exact concludes.eq_of_fault (concludes.stage_done (answerVerdict_ne_query hw wq wr s)) nonzero

/-- Settles O17: the code of a finished command is that of its verdict. -/
theorem commandsEndInTheListedCodes : Obligations.CommandsEndInTheListedCodes := by
  unfold Obligations.CommandsEndInTheListedCodes
  constructor
  · intro i s t hq h done
    have concludes := exec_concludes_call (i := i) (.inl hq)
    rw [h] at concludes
    exact callVerdict_code_mem (concludes.code_of_done done)
  · intro i s t wq wr rest hq hi hw h
    have concludes := exec_concludes_answer hw hq hi
    rw [h] at concludes
    have done := concludes.stage_done (answerVerdict_ne_query hw wq wr s)
    exact ⟨done, answerVerdict_code_mem (concludes.code_of_done done)⟩

/-- Settles O18: only the operand check gives code 10. -/
theorem operandRangeExactlyWhenAUsedOperandIsTooWide :
    Obligations.OperandRangeExactlyWhenAUsedOperandIsTooWide := by
  unfold Obligations.OperandRangeExactlyWhenAUsedOperandIsTooWide
  intro s cmd a b rest i hq hi hd
  have concludes := step_call_concludes hq hi
  rw [latchedVerdict_of_ok (s := accepted s cmd a b rest) hd] at concludes
  exact (concludes.endsInFault_iff (by decide)).trans exactCall_code_ten_iff

end Sys2Proof.Machine
end

section
/-! PROOFS. Reset, the events that pass, `MODULUS`, and late or malicious answers (R172, R173, R210 to R217): an answer
that is accepted for the outstanding query is the honest one to it in every respect that the command reads; and the
four obligations of the family. -/

namespace Sys2Proof.Machine

/-! ### The views after reset (R210) -/

/-- `IDLE` has code 0, so the status byte of a block without an outcome is zero. -/
theorem State.STATUS_eq_zero {t : State} (idle : t.stage = .idle) (zero : t.CODE = 0) : t.STATUS = 0 := by
  apply BitVec.eq_of_toNat_eq
  rw [State.STATUS_toNat, idle, zero]
  rfl

/-- The reset event leaves nothing of the state before it but the parameters and the events to come (R210, R215). -/
theorem resetRegisters_passEvent {s : State} {rest : List PortEvent} (hi : s.inputs = .reset :: rest) :
    s.passEvent.resetRegisters =
      { stage := .idle, CMD := 0x00, A := 0, B := 0, RES0 := 0, RES1 := 0, CODE := 0, cfg := s.cfg,
        inputs := rest } := by
  rw [passEvent_eq hi]
  rfl

/-! ### `MODULUS` (R172, R173) -/

/-- The result of `MODULUS` depends on neither operand, nor on whether they fit the width (R51). -/
theorem exactCall_modulus (E W a b : Nat) : exactCall E W a b .modulus = .value (2 ^ (W / 2)) 0 := by
  rw [exactCall, if_neg (not_operandTooWide_of_unused rfl rfl)]

/-- R172, R173: in any stage and with any operands. -/
theorem exec_modulus {i : Instr} (hop : i.op = .modulus) (s : State) :
    EndsWithValue s (exec i s) (2 ^ i.width.halfBits) 0 :=
  exec_endsWithValue (by rw [hop]; rfl) (by rw [callVerdict, hop, exactCall_modulus, halfBits_eq_half])

/-! ### Accepted answers (R217) -/

/-- An answer that a division command accepts is the honest one: the remainder's bound gives a divisor that is not
zero, and the division theorem the rest. -/
theorem eq_honestDivision_of_value {a b wq wr : Bus} {op : Op} {r0 r1 : Nat} (hd : op.dividesByWitness = true)
    (value : exactAnswer a.toNat b.toNat wq.toNat wr.toNat op = .value r0 r1) : (wq, wr) = honestDivision a b := by
  rw [exactAnswer_of_divides hd] at value
  obtain ⟨bound, product, -⟩ := divided_eq_value value
  exact (eq_honestDivision_iff (Nat.ne_zero_of_lt bound)).2 ⟨bound, product⟩

/-- A candidate that `SQRT` accepts is the floor of the root: any other is above it or below it, a fault (R133). -/
theorem eq_sqrt_of_value {a b wq wr r0 r1 : Nat} (value : exactAnswer a b wq wr .sqrt = .value r0 r1) :
    wq = Nat.sqrt a := by
  rcases exactAnswer_sqrt_cases a b wq wr with ⟨floor, -⟩ | ⟨-, verdict⟩ | ⟨-, verdict⟩
  · exact floor
  · cases value.symm.trans verdict
  · cases value.symm.trans verdict

/-- What `SQRT` does with an answer is decided by the candidate alone: the second word is ignored (R126). -/
theorem exactAnswer_sqrt_ignores_second (a b wq wr wr' : Nat) :
    exactAnswer a b wq wr .sqrt = exactAnswer a b wq wr' .sqrt := rfl

section Answers

variable {i : Instr} {s t : State} {wq wr : Bus} {rest : List PortEvent} (hq : s.stage = .query)
  (hi : s.inputs = .answer wq wr :: rest) (hd : decode s.CMD = .ok i) (hw : i.op.queriesWitness = true)
include hq hi hd hw

/-- An answer that ends the call with code 0 is one that integer arithmetic accepts. -/
theorem exactAnswer_of_step_code_zero (h : step s = .next t) (zero : t.CODE = 0) :
    exactAnswer s.A.toNat s.B.toNat wq.toNat wr.toNat i.op = .value t.RES0.toNat t.RES1.toNat := by
  have concludes := step_answer_concludes hq hi hd hw
  rw [h] at concludes
  exact concludes.verdict_of_code_zero (concludes.stage_done (answerVerdict_ne_query hw wq wr s)) zero

/-- The next state is a function of the accepted value: another answer that is accepted with the same value, in place
of the one presented, leads to the same state. -/
theorem step_answer_of_same_value {wq' wr' : Bus} {r0 r1 : Nat}
    (value : exactAnswer s.A.toNat s.B.toNat wq.toNat wr.toNat i.op = .value r0 r1)
    (value' : exactAnswer s.A.toNat s.B.toNat wq'.toNat wr'.toNat i.op = .value r0 r1) :
    step { s with inputs := .answer wq' wr' :: rest } = step s := by
  have ends := everyAnswerAgreesWithIntegerArithmetic s wq wr rest i hq hi hd hw
  have ends' := everyAnswerAgreesWithIntegerArithmetic { s with inputs := .answer wq' wr' :: rest } wq' wr' rest i
    hq rfl hd hw
  rw [value] at ends
  rw [value'] at ends'
  obtain ⟨next, -⟩ := ends
  obtain ⟨next', -⟩ := ends'
  exact next'.trans next.symm

end Answers

/-! ### The obligations -/

/-- Settles O50: an accepted division answer is the honest one itself; an accepted root is the honest root, and the
second word of the answer, which may differ, is ignored. -/
theorem staleAnswersNeverGiveAWrongValue : Obligations.StaleAnswersNeverGiveAWrongValue := by
  unfold Obligations.StaleAnswersNeverGiveAWrongValue
  intro s t wq wr rest i hq hi hd h zero
  refine ⟨fun divides => ?_, fun root => ?_⟩
  · have value := exactAnswer_of_step_code_zero hq hi hd (Op.queriesWitness_iff.2 (.inl divides)) h zero
    have honest := eq_honestDivision_of_value divides value
    rw [← honest, ← hi]
    exact h
  · have hw := Op.queriesWitness_iff.2 (.inr root)
    have value := exactAnswer_of_step_code_zero hq hi hd hw h zero
    have floor : wq.toNat = Nat.sqrt s.A.toNat := eq_sqrt_of_value (root ▸ value)
    have honest : wq = honestRoot s.A := BitVec.eq_of_toNat_eq (floor.trans (honestRoot_toNat s.A).symm)
    have value' : exactAnswer s.A.toNat s.B.toNat (honestRoot s.A).toNat (0 : Bus).toNat i.op =
        .value t.RES0.toNat t.RES1.toNat := by
      rw [← honest, ← value, root]
      exact exactAnswer_sqrt_ignores_second ..
    exact (step_answer_of_same_value hq hi hd hw value value').trans h

/-- Settles O7: what is not enabled passes, and no event leaves the state as it is. -/
theorem disabledEventsChangeNoRegister : Obligations.DisabledEventsChangeNoRegister := by
  unfold Obligations.DisabledEventsChangeNoRegister
  refine ⟨fun s cmd a b rest hq hi => ?_, fun s wq wr rest hq hi => ?_, fun s hi => step_no_event hi⟩
  · rw [step_call_in_query hq hi, passEvent_eq hi]
  · rw [step_answer_outside_query hq hi, passEvent_eq hi]

/-- Settles O8: the reset event, the four views in `IDLE` with code 0, and the reset state by its definition. -/
theorem resetGivesTheListedValues : Obligations.ResetGivesTheListedValues := by
  unfold Obligations.ResetGivesTheListedValues
  refine ⟨fun s rest hi => ?_, fun t idle zero => ?_, rfl, rfl, rfl, rfl, rfl, rfl, rfl⟩
  · rw [step_reset hi, resetRegisters_passEvent hi]
  · simp [State.STATUS_eq_zero idle zero, State.READY, State.DONE_O, State.WREQ, idle]

/-- Settles O41: `MODULUS` at its two widths. -/
theorem modulusIsThatOfTheNarrowerWidth : Obligations.ModulusIsThatOfTheNarrowerWidth := by
  unfold Obligations.ModulusIsThatOfTheNarrowerWidth
  exact ⟨by decide, by decide,
    fun s => ⟨exec_modulus (i := .modulus128) rfl s, exec_modulus (i := .modulus256) rfl s⟩⟩

end Sys2Proof.Machine
end
